-- ==== Sys2Proof/Word.lean ====
section
/-!
DEFINITION. The widths of the block's values (00_scope.md R7, 10_state.md R20, 30_encoding.md R60).
Every value is unsigned and bit 0 is its least significant bit (00_scope.md R10).
-/

namespace Sys2Proof

/-- A byte of a body, a frame or a CRC byte sequence (00_scope.md R11). -/
abbrev Byte := BitVec 8

/-- A command word `cw` (30_encoding.md R60): OP in bits 35..32, OPND in bits 31..0. -/
abbrev CmdWord := BitVec 36

/-- The opcode field OP. -/
abbrev Opcode := BitVec 4

/-- The operand field OPND; also a RawInputState and a body word (00_scope.md R7). -/
abbrev Word32 := BitVec 32

/-- A DpadCode or a HatValue in its 4-bit field (00_scope.md R7). -/
abbrev Nibble := BitVec 4

/-- A value of the CRC-16 accumulator (10_state.md R22). -/
abbrev CrcWord := BitVec 16

/-- A value of the result register; also a frame word (10_state.md R24, 00_scope.md R11). -/
abbrev ResWord := BitVec 48

end Sys2Proof
end

