-- ==== Sys2Proof/Machine/Operands.lean ====
section
/-!
DEFINITION. The fields of a command word (30_encoding.md R60), every operand form (R61), the byte lanes of words
(00_scope.md R11) and the zero extension of results (00_scope.md R10, 10_state.md R24).
-/

namespace Sys2Proof

/-- OP: bits 35..32 of the command word (30_encoding.md R60). -/
def opField (cw : CmdWord) : Opcode :=
  cw.extractLsb' 32 4

/-- OPND: bits 31..0 of the command word (30_encoding.md R60). -/
def opndField (cw : CmdWord) : Word32 :=
  cw.extractLsb' 0 32

/-- HAT's operand d = OPND[3:0] (30_encoding.md R61). -/
def hatOperand (opnd : Word32) : Nibble :=
  opnd.extractLsb' 0 4

/-- CUPD's operand b = OPND[7:0] (30_encoding.md R61). -/
def byteOperand (opnd : Word32) : Byte :=
  opnd.extractLsb' 0 8

/-- The operand of ENC, APPEND and FRAME: OPND[31:0] (30_encoding.md R61). -/
def wordOperand (opnd : Word32) : Word32 :=
  opnd

/-- `{OP, OPND}`, OP in the high bits (30_encoding.md R68, 00_scope.md R10). -/
def makeWord (op : Opcode) (opnd : Word32) : CmdWord :=
  op ++ opnd

namespace Machine

/-- Byte `k` of a word: bits 8k+7..8k (00_scope.md R11). -/
def byteLane {n : Nat} (v : BitVec n) (k : Nat) : Byte :=
  v.extractLsb' (8 * k) 8

/-- The body bytes of a body word, byte 0 first (00_scope.md R11, 42_frame.md R110). -/
def bodyBytes (w : Word32) : List Byte :=
  [byteLane w 0, byteLane w 1, byteLane w 2, byteLane w 3]

/-- The frame bytes of a frame word, byte 0 first (00_scope.md R11, 42_frame.md R110). -/
def frameBytes (f : ResWord) : List Byte :=
  [byteLane f 0, byteLane f 1, byteLane f 2, byteLane f 3, byteLane f 4, byteLane f 5]

/-- zext_48 of a result (00_scope.md R10, 10_state.md R24). -/
def zext48 {n : Nat} (v : BitVec n) : ResWord :=
  v.setWidth 48

end Machine

end Sys2Proof
end

