-- ==== Sys2Proof/Syntax.lean ====
section
/-!
DEFINITION. The commands of ZLG-CMD v1, one constructor per row of spec/opcode_table.json
(30_encoding.md R63). An operand has the width of the bits that the command uses (30_encoding.md R61), so every
term is well-formed by its type. The bits a command ignores (30_encoding.md R62) are no part of it.
-/

namespace Sys2Proof

/-- One command. The seven reserved rows are commands too: each raises IllegalCommand (60_exceptions.md R120). -/
inductive Instr
  /-- OP 0x0 NOP (42_frame.md R113). -/
  | nop
  /-- OP 0x1 HAT d (40_hat_encoder.md R80). -/
  | hat (d : Nibble)
  /-- OP 0x2 ENC raw (40_hat_encoder.md R83). -/
  | enc (raw : Word32)
  /-- OP 0x3 CINIT (41_crc.md R91). -/
  | cinit
  /-- OP 0x4 CUPD b (41_crc.md R92). -/
  | cupd (b : Byte)
  /-- OP 0x5 CREAD (41_crc.md R93). -/
  | cread
  /-- OP 0x6 CFIN (41_crc.md R94). -/
  | cfin
  /-- OP 0x7 APPEND w (42_frame.md R111). -/
  | append (w : Word32)
  /-- OP 0x8 FRAME raw (42_frame.md R112). -/
  | frame (raw : Word32)
  /-- OP 0x9, reserved (60_exceptions.md R120). -/
  | reserved9
  /-- OP 0xA, reserved (60_exceptions.md R120). -/
  | reservedA
  /-- OP 0xB, reserved (60_exceptions.md R120). -/
  | reservedB
  /-- OP 0xC, reserved (60_exceptions.md R120). -/
  | reservedC
  /-- OP 0xD, reserved (60_exceptions.md R120). -/
  | reservedD
  /-- OP 0xE, reserved (60_exceptions.md R120). -/
  | reservedE
  /-- OP 0xF, reserved (60_exceptions.md R120). -/
  | reservedF
  deriving DecidableEq, Repr

end Sys2Proof
end

