-- ==== Sys2Proof/WellFormed.lean ====
section
/-!
DEFINITION. What a well-formed command is, and what a well-formed line of assembler source is
(30_encoding.md R66, R67). A term of `Instr` holds operands of the encoded widths, so the checks on widths are on
source lines, whose operands are unbounded literals. A line the assembler refuses is refused under a name.
-/

namespace Sys2Proof

/-- The command has an assigned opcode, 0x0..0x8 (30_encoding.md R63, R64). A reserved opcode has no mnemonic and is
no term of assembler source (30_encoding.md R66). -/
def Instr.assigned : Instr → Bool
  | .nop => true
  | .hat _ => true
  | .enc _ => true
  | .cinit => true
  | .cupd _ => true
  | .cread => true
  | .cfin => true
  | .append _ => true
  | .frame _ => true
  | .reserved9 => false
  | .reservedA => false
  | .reservedB => false
  | .reservedC => false
  | .reservedD => false
  | .reservedE => false
  | .reservedF => false

/-- The nine mnemonics of assembler source (30_encoding.md R63, R66). -/
inductive Mnemonic
  | nop | hat | enc | cinit | cupd | cread | cfin | append | frame
  deriving DecidableEq, Repr

/-- The width in bits of the operand a mnemonic takes, or `none` where it takes none (30_encoding.md R61, R66). -/
def Mnemonic.operandWidth : Mnemonic → Option Nat
  | .nop => none
  | .hat => some 4
  | .enc => some 32
  | .cinit => none
  | .cupd => some 8
  | .cread => none
  | .cfin => none
  | .append => some 32
  | .frame => some 32

/-- One line of assembler source, its literals as written (30_encoding.md R66, R67). -/
inductive SourceLine
  /-- A line with no command: empty, or a comment alone. R66 is silent on such a line. DESIGN CHOICE: it is accepted and
  gives no words (notes/assumptions/15.md). -/
  | blank
  /-- `MNEMONIC` or `MNEMONIC operand`. -/
  | command (m : Mnemonic) (operand : Option Nat)
  /-- `.word36 w`: the raw command word. -/
  | word36 (w : Nat)
  /-- `CRCBYTES b0, …, bn−1`. -/
  | crcBytes (bs : List Nat)
  /-- `CRCBODY w`. -/
  | crcBody (w : Nat)
  /-- `CHECKFRAME f`. -/
  | checkFrame (f : Nat)
  deriving DecidableEq, Repr

/-- Why the assembler refuses a line. R66 itself calls two things an error: a literal that does not fit, and an operand given
to NOP, CINIT, CREAD or CFIN. The other refusals are the model's (DESIGN CHOICE, notes/assumptions/14.md). -/
inductive SourceError
  /-- The first word of the line is no mnemonic, directive or pseudo-instruction. DESIGN CHOICE
  (notes/assumptions/14.md). -/
  | unknownMnemonic
  /-- An operand is not an unsigned hexadecimal or decimal literal. DESIGN CHOICE (notes/assumptions/14.md). -/
  | badLiteral
  /-- The command takes an operand and the line gives none; R66 does not call that an error. DESIGN CHOICE
  (notes/assumptions/14.md). -/
  | missingOperand
  /-- The command takes no operand and the line gives one, an assembly error by R66; or it takes one and the line gives
  more, DESIGN CHOICE (notes/assumptions/14.md). -/
  | unexpectedOperand
  /-- A literal does not fit its field, an assembly error by R66. -/
  | operandTooLarge
  deriving DecidableEq, Repr

/-- The literal fits a field of `width` bits; it is never truncated (30_encoding.md R66). -/
def literalFits (width v : Nat) : Bool :=
  decide (v < 2 ^ width)

/-- What is wrong with a source line, `none` where nothing is (30_encoding.md R66, R67). R66 states the refusal of a literal
that does not fit and of an operand for NOP, CINIT, CREAD or CFIN. DESIGN CHOICE: a HAT, ENC, CUPD, APPEND or FRAME line with
no operand is refused as `missingOperand`, which R66 does not call an error (notes/assumptions/14.md); a blank line is
accepted (15.md). DEDUCED: the operands of the pseudo-instructions must fit too (10.md). -/
def SourceLine.problem : SourceLine → Option SourceError
  | .blank => none
  | .command m operand =>
    match m.operandWidth, operand with
    | none, none => none
    | none, some _ => some .unexpectedOperand
    | some _, none => some .missingOperand
    | some width, some v => if literalFits width v then none else some .operandTooLarge
  | .word36 w => if literalFits 36 w then none else some .operandTooLarge
  | .crcBytes bs => if bs.all (literalFits 8) then none else some .operandTooLarge
  | .crcBody w => if literalFits 32 w then none else some .operandTooLarge
  | .checkFrame f => if literalFits 48 f then none else some .operandTooLarge

/-- The assembler accepts the line. -/
def SourceLine.wellFormed (l : SourceLine) : Bool :=
  l.problem.isNone

end Sys2Proof
end

