-- ==== Sys2Proof/Decode.lean ====
section
/-!
DEFINITION. The opcode map (30_encoding.md R63), the decoder and the encoder.
A command arrives whole as one 36-bit word with no byte order (20_memory.md R48), and every 36-bit word selects
exactly one row (R63), so `decode` refuses nothing. A number that is no 36-bit word is rejected by name.
-/

namespace Sys2Proof

/-- One row of the opcode map: a word selects it when `(cw & mask) = pattern` (30_encoding.md R63; the spec's
column `match`). -/
structure OpcodeRow where
  mnemonic : String
  pattern : CmdWord
  mask : CmdWord
  deriving DecidableEq, Repr

/-- The word selects the row (30_encoding.md R63). -/
def OpcodeRow.selectedBy (row : OpcodeRow) (cw : CmdWord) : Bool :=
  cw &&& row.mask == row.pattern

/-- The nine assigned rows (30_encoding.md R63). -/
def assignedRows : List OpcodeRow :=
  [⟨"NOP", 0x000000000, 0xF00000000⟩,
   ⟨"HAT", 0x100000000, 0xF00000000⟩,
   ⟨"ENC", 0x200000000, 0xF00000000⟩,
   ⟨"CINIT", 0x300000000, 0xF00000000⟩,
   ⟨"CUPD", 0x400000000, 0xF00000000⟩,
   ⟨"CREAD", 0x500000000, 0xF00000000⟩,
   ⟨"CFIN", 0x600000000, 0xF00000000⟩,
   ⟨"APPEND", 0x700000000, 0xF00000000⟩,
   ⟨"FRAME", 0x800000000, 0xF00000000⟩]

/-- The seven reserved rows (30_encoding.md R63, R64), named as spec/opcode_table.json names them. -/
def reservedRows : List OpcodeRow :=
  [⟨"reserved_0x9", 0x900000000, 0xF00000000⟩,
   ⟨"reserved_0xA", 0xA00000000, 0xF00000000⟩,
   ⟨"reserved_0xB", 0xB00000000, 0xF00000000⟩,
   ⟨"reserved_0xC", 0xC00000000, 0xF00000000⟩,
   ⟨"reserved_0xD", 0xD00000000, 0xF00000000⟩,
   ⟨"reserved_0xE", 0xE00000000, 0xF00000000⟩,
   ⟨"reserved_0xF", 0xF00000000, 0xF00000000⟩]

/-- The opcode map, all sixteen rows (30_encoding.md R63). -/
def opcodeRows : List OpcodeRow :=
  assignedRows ++ reservedRows

/-- The row's mnemonic in spec/opcode_table.json. -/
def Instr.mnemonic : Instr → String
  | .nop => "NOP"
  | .hat _ => "HAT"
  | .enc _ => "ENC"
  | .cinit => "CINIT"
  | .cupd _ => "CUPD"
  | .cread => "CREAD"
  | .cfin => "CFIN"
  | .append _ => "APPEND"
  | .frame _ => "FRAME"
  | .reserved9 => "reserved_0x9"
  | .reservedA => "reserved_0xA"
  | .reservedB => "reserved_0xB"
  | .reservedC => "reserved_0xC"
  | .reservedD => "reserved_0xD"
  | .reservedE => "reserved_0xE"
  | .reservedF => "reserved_0xF"

/-- The command that OP and OPND name (30_encoding.md R61, R63). The last case is OP = 0xF, the only 4-bit value
left. -/
def decodeFields (op : Opcode) (opnd : Word32) : Instr :=
  match op.toNat with
  | 0x0 => .nop
  | 0x1 => .hat (hatOperand opnd)
  | 0x2 => .enc (wordOperand opnd)
  | 0x3 => .cinit
  | 0x4 => .cupd (byteOperand opnd)
  | 0x5 => .cread
  | 0x6 => .cfin
  | 0x7 => .append (wordOperand opnd)
  | 0x8 => .frame (wordOperand opnd)
  | 0x9 => .reserved9
  | 0xA => .reservedA
  | 0xB => .reservedB
  | 0xC => .reservedC
  | 0xD => .reservedD
  | 0xE => .reservedE
  | _ => .reservedF

/-- The decoder: it reads OP alone to select the command (30_encoding.md R60). -/
def decode (cw : CmdWord) : Instr :=
  decodeFields (opField cw) (opndField cw)

/-- Why a number is no command. -/
inductive DecodeError
  /-- The number needs more than 36 bits: it is no command word (30_encoding.md R60, R65). Safe: the block's input has
  no such value. -/
  | widerThanCommandWord
  deriving DecidableEq, Repr

/-- The command a number encodes, the number's bit 0 being the word's bit 0. -/
def decodeNat (n : Nat) : Except DecodeError Instr :=
  if n < 2 ^ 36 then .ok (decode (BitVec.ofNat 36 n)) else .error .widerThanCommandWord

/-- The number that `nbits` bits of `w` give: the bits above them are 0. -/
def tableWordBits (nbits w : Nat) : Nat :=
  w % 2 ^ nbits

/-- What the decoder reads from an opcode-table word; a command is one 36-bit word, bit 0 least significant, so the
table's numbering is the word's own. -/
def decodeTableWord (nbits w : Nat) : Option Instr :=
  match decodeNat (tableWordBits nbits w) with
  | .ok i => some i
  | .error _ => none

/-- The opcode of a command (30_encoding.md R63). -/
def Instr.opcode : Instr → Opcode
  | .nop => 0x0
  | .hat _ => 0x1
  | .enc _ => 0x2
  | .cinit => 0x3
  | .cupd _ => 0x4
  | .cread => 0x5
  | .cfin => 0x6
  | .append _ => 0x7
  | .frame _ => 0x8
  | .reserved9 => 0x9
  | .reservedA => 0xA
  | .reservedB => 0xB
  | .reservedC => 0xC
  | .reservedD => 0xD
  | .reservedE => 0xE
  | .reservedF => 0xF

/-- The OPND field of a command: for an assigned command zext_32 of its operand and every ignored bit 0, as the assembler
writes it (30_encoding.md R66, R68). DESIGN CHOICE: 0 for a reserved command, which has no mnemonic and is written raw by
`.word36` (R66), so the spec gives its OPND bits no value (notes/assumptions/13.md). -/
def Instr.operandBits : Instr → Word32
  | .nop => 0
  | .hat d => d.setWidth 32
  | .enc raw => raw
  | .cinit => 0
  | .cupd b => b.setWidth 32
  | .cread => 0
  | .cfin => 0
  | .append w => w
  | .frame raw => raw
  | .reserved9 => 0
  | .reservedA => 0
  | .reservedB => 0
  | .reservedC => 0
  | .reservedD => 0
  | .reservedE => 0
  | .reservedF => 0

/-- The encoder: the command's word `{OP, OPND}` (30_encoding.md R68; for the reserved commands the model's choice of OPND,
notes/assumptions/13.md). -/
def encode (i : Instr) : CmdWord :=
  makeWord i.opcode i.operandBits

/-- The bits of a command word that select the command or are its operand; all others are ignored
(30_encoding.md R62, the patterns of R63). -/
def Instr.usedBits : Instr → CmdWord
  | .nop => 0xF00000000
  | .hat _ => 0xF0000000F
  | .enc _ => 0xFFFFFFFFF
  | .cinit => 0xF00000000
  | .cupd _ => 0xF000000FF
  | .cread => 0xF00000000
  | .cfin => 0xF00000000
  | .append _ => 0xFFFFFFFFF
  | .frame _ => 0xFFFFFFFFF
  | .reserved9 => 0xF00000000
  | .reservedA => 0xF00000000
  | .reservedB => 0xF00000000
  | .reservedC => 0xF00000000
  | .reservedD => 0xF00000000
  | .reservedE => 0xF00000000
  | .reservedF => 0xF00000000

end Sys2Proof
end

