-- ==== Sys2Proof/Config.lean ====
section
/-!
DEFINITION. What is fixed for one machine and changed by no step: the parameter DPAD_MAP
(00_scope.md R8, 92_eei_decisions.md D12) and how many issuers are attached (60_exceptions.md R128, R129).
The model has no free value: the spec leaves no result, flag or register undefined.
-/

namespace Sys2Proof

/-- The four directional switch lines (00_scope.md R15). -/
inductive Direction
  | up | right | down | left
  deriving DecidableEq, Repr

/-- DPAD_MAP: which DpadCode bit carries which direction (00_scope.md R8). Four bit positions with no
repeat are a bijection onto 0..3, so a map that is no bijection cannot be written. -/
structure DpadMap where
  up : Fin 4
  right : Fin 4
  down : Fin 4
  left : Fin 4
  distinct : [up, right, down, left].Nodup
  deriving DecidableEq, Repr

/-- DPAD_MAP(x): the DpadCode bit position of direction `x` (00_scope.md R8). -/
def DpadMap.bitOf (m : DpadMap) : Direction → Fin 4
  | .up => m.up
  | .right => m.right
  | .down => m.down
  | .left => m.left

/-- The spec's default map: UP = 0, RIGHT = 1, DOWN = 2, LEFT = 3 (00_scope.md R8). -/
def DpadMap.default : DpadMap :=
  { up := 0, right := 1, down := 2, left := 3, distinct := by decide }

/-- How many issuers are attached to the block: one is the supported configuration (60_exceptions.md R128),
several is the one a model refuses (60_exceptions.md R129). -/
inductive Issuers
  | one | several
  deriving DecidableEq, Repr

/-- The parameters of one machine. -/
structure Config where
  /-- DPAD_MAP (00_scope.md R8). -/
  dpadMap : DpadMap
  /-- The number of issuers (60_exceptions.md R128, R129). -/
  issuers : Issuers
  deriving DecidableEq, Repr

/-- The spec's defaults: the default DPAD_MAP and exactly one issuer (00_scope.md R8, 60_exceptions.md R128). -/
def Config.default : Config :=
  { dpadMap := DpadMap.default, issuers := .one }

end Sys2Proof
end

