-- ==== Sys2Proof/Machine/State.lean ====
section
/-!
DEFINITION. The state of the machine, the events at its ports, and the reasons a step can stop.
The block's mutable state is exactly CRC, RES and ERR (10_state.md R20). The other two fields are the model's own
(notes/assumptions/1.md, 3.md and 4.md).
-/

namespace Sys2Proof.Machine

/-- What the issuer presents in one step (10_state.md R31, 60_exceptions.md R128). -/
inductive PortEvent
  /-- A command word on `cw`. -/
  | command (cw : CmdWord)
  /-- The `reset` request, with the command word presented in the same step where there is one
  (70_reset_and_hazards.md R141). -/
  | reset (presented : Option CmdWord)
  /-- Power is lost and comes back (60_exceptions.md R130, 70_reset_and_hazards.md R140). -/
  | powerUp
  deriving DecidableEq, Repr

/-- The machine's state, plain data. -/
structure State where
  /-- CRC, the CRC-16 accumulator (10_state.md R22). -/
  crc : CrcWord
  /-- RES, the result register (10_state.md R24). -/
  res : ResWord
  /-- ERR, the sticky illegal-command flag; `true` is 1 (10_state.md R26). -/
  err : Bool
  /-- The model's own: the issuer's events that the block has not yet taken, the next one first
  (notes/assumptions/1.md). -/
  inputs : List PortEvent
  /-- The model's own: the parameters, changed by no step (notes/assumptions/3.md, 4.md). -/
  config : Config
  deriving DecidableEq, Repr

/-- The faults that stop the machine: none. IllegalCommand, the block's one exception, sets ERR and the machine goes on
(60_exceptions.md R121, R125), so it is a next state and no fault. -/
inductive Fault
  deriving DecidableEq, Repr

/-- The refusals: what the model gives no meaning. -/
inductive Refusal
  /-- Raised by an arm of `exec` whose instruction has no meaning yet; none is left. Safe. -/
  | notModelled (mnemonic : String)
  /-- Raised by a step of a configuration with several issuers: "A model refuses any configuration with more than one
  issuer" (60_exceptions.md R129). Safe. -/
  | multipleIssuers
  deriving DecidableEq, Repr

/-- The machine right after reset: CRC = 0xFFFF, RES = 0, ERR = 0 (10_state.md R30), waiting for its first command
(70_reset_and_hazards.md R140), with the default parameters (00_scope.md R8, 60_exceptions.md R128). -/
def State.reset : State :=
  { crc := 0xFFFF, res := 0, err := false, inputs := [], config := Config.default }

end Sys2Proof.Machine
end

