-- ==== Sys2Proof/Machine/Flags.lean ====
section
/-!
DEFINITION. ERR, the block's only flag: no condition codes, carry, zero or overflow flags (10_state.md R26).
-/

namespace Sys2Proof.Machine

/-- `ERR <- 1`, the only write a command makes to ERR (60_exceptions.md R121). -/
def State.setErr (s : State) : State :=
  { s with err := true }

end Sys2Proof.Machine
end

