-- ==== Sys2Proof/Machine/Ops.lean ====
section
/-!
DEFINITION. The operations every command is made of: the register writes (00_scope.md R12), taking the block's one
exception, and reset. There is no return from an exception: nothing was disabled and only reset clears ERR
(60_exceptions.md R126). There is no memory to read or write (20_memory.md R40).
-/

namespace Sys2Proof.Machine

/-- `CRC <- v` (00_scope.md R12). -/
def State.writeCrc (s : State) (v : CrcWord) : State :=
  { s with crc := v }

/-- `RES <- v`, all 48 bits (00_scope.md R12, 10_state.md R24). -/
def State.writeRes (s : State) (v : ResWord) : State :=
  { s with res := v }

/-- `raise IllegalCommand(op)`: ERR <- 1, and nothing else. It records no command word, operand or opcode and transfers
control nowhere (60_exceptions.md R120, R121, R125). -/
def State.raiseIllegalCommand (s : State) (_op : Opcode) : State :=
  s.setErr

/-- The cause code of IllegalCommand, the only exception; no state element holds it (60_exceptions.md R120). -/
def illegalCommandCause : Nat := 1

/-- Reset: every state element takes its value of 10_state.md R30 (70_reset_and_hazards.md R140). The issuer's later
events and the parameters are not the block's state and stay. -/
def State.applyReset (s : State) : State :=
  { s with crc := 0xFFFF, res := 0, err := false }

/-- The outputs `res` and `err` (10_state.md R31). -/
structure Outputs where
  res : ResWord
  err : Bool
  deriving DecidableEq, Repr

/-- What the issuer reads: the current RES and ERR; reading writes nothing (10_state.md R31, 20_memory.md R50). -/
def State.outputs (s : State) : Outputs :=
  { res := s.res, err := s.err }

end Sys2Proof.Machine
end

