-- ==== Sys2Proof/Machine/Crc.lean ====
section
/-!
DEFINITION. The CRC-16 engine: the update function, the CRC of a byte sequence, and the commands CINIT, CUPD, CREAD and
CFIN (41_crc.md).
-/

namespace Sys2Proof.Machine

/-- The CRC initial value (00_scope.md R7, 41_crc.md R91). -/
def crcInit : CrcWord := 0xFFFF

/-- crc_update(r, b) (41_crc.md R90). -/
def crcUpdate (r : CrcWord) (b : Byte) : CrcWord :=
  (r >>> 8) ^^^ crct ((r ^^^ b.setWidth 16).extractLsb' 0 8)

/-- The updates of a byte sequence in index order, from the register value `r` (41_crc.md R95). -/
def crcFold (r : CrcWord) (bytes : List Byte) : CrcWord :=
  bytes.foldl crcUpdate r

/-- crc_reg(m) (41_crc.md R95). -/
def crcReg (bytes : List Byte) : CrcWord :=
  crcFold crcInit bytes

/-- crc16(m): the register with all bits inverted (41_crc.md R95). -/
def crc16 (bytes : List Byte) : CrcWord :=
  ~~~ crcReg bytes

/-- CINIT (41_crc.md R91). -/
def execCinit (s : State) : Host.Outcome State Fault Refusal :=
  .next (s.writeCrc crcInit)

/-- CUPD b (41_crc.md R92); the read sees CRC from before the step (00_scope.md R13). -/
def execCupd (b : Byte) (s : State) : Host.Outcome State Fault Refusal :=
  .next (s.writeCrc (crcUpdate s.crc b))

/-- CREAD (41_crc.md R93). -/
def execCread (s : State) : Host.Outcome State Fault Refusal :=
  .next (s.writeRes (zext48 s.crc))

/-- CFIN (41_crc.md R94): the inversion is over 16 bits and CRC is not written. -/
def execCfin (s : State) : Host.Outcome State Fault Refusal :=
  .next (s.writeRes (zext48 (~~~ s.crc)))

end Sys2Proof.Machine
end

