-- ==== Sys2Proof/Machine/HatEncoder.lean ====
section
/-!
DEFINITION. The hat-switch lookup, the report encoder, and the commands HAT and ENC (40_hat_encoder.md).
-/

namespace Sys2Proof.Machine

/-- DpadCode: raw[3:0] (40_hat_encoder.md R81). -/
def dpadCode (raw : Word32) : Nibble :=
  raw.extractLsb' 0 4

/-- ButtonBitmap: raw[31:4], re-indexed to start at bit 0 (40_hat_encoder.md R81). All 28 bits as given: no pin mask
(R85). -/
def buttonBitmap (raw : Word32) : BitVec 28 :=
  raw.extractLsb' 4 28

/-- encode(raw): the body word (40_hat_encoder.md R81). -/
def encodeBody (m : DpadMap) (raw : Word32) : Word32 :=
  (buttonBitmap raw).setWidth 32 ||| ((hatt m (dpadCode raw)).setWidth 32 <<< 28)

/-- HAT d (40_hat_encoder.md R80). -/
def execHat (d : Nibble) (s : State) : Host.Outcome State Fault Refusal :=
  .next (s.writeRes (zext48 (hatt s.config.dpadMap d)))

/-- ENC raw (40_hat_encoder.md R83). -/
def execEnc (raw : Word32) (s : State) : Host.Outcome State Fault Refusal :=
  .next (s.writeRes (zext48 (encodeBody s.config.dpadMap raw)))

end Sys2Proof.Machine
end

