-- ==== Sys2Proof/Machine/Frame.lean ====
section
/-!
DEFINITION. Frame composition and the commands APPEND, FRAME and NOP (42_frame.md).
-/

namespace Sys2Proof.Machine

/-- append_crc(w) = {c, w} with c = crc16 of the body bytes (42_frame.md R110). The accumulator of `crc16` is private to
the step: CRC is neither read nor written (10_state.md R29). -/
def appendCrc (w : Word32) : ResWord :=
  (crc16 (bodyBytes w) ++ w : BitVec (16 + 32))

/-- APPEND w (42_frame.md R111). -/
def execAppend (w : Word32) (s : State) : Host.Outcome State Fault Refusal :=
  .next (s.writeRes (appendCrc w))

/-- FRAME raw (42_frame.md R112). -/
def execFrame (raw : Word32) (s : State) : Host.Outcome State Fault Refusal :=
  .next (s.writeRes (appendCrc (encodeBody s.config.dpadMap raw)))

/-- NOP (42_frame.md R113): no state is written. -/
def execNop (s : State) : Host.Outcome State Fault Refusal :=
  .next s

end Sys2Proof.Machine
end

