-- ==== Sys2Proof/Machine/Illegal.lean ====
section
/-!
DEFINITION. The seven reserved opcodes, each `raise IllegalCommand(OP)` (60_exceptions.md R120, R121).
-/

namespace Sys2Proof.Machine

/-- OP 0x9 (60_exceptions.md R120, R121). -/
def execReserved9 (s : State) : Host.Outcome State Fault Refusal :=
  .next (s.raiseIllegalCommand 0x9)

/-- OP 0xA (60_exceptions.md R120, R121). -/
def execReservedA (s : State) : Host.Outcome State Fault Refusal :=
  .next (s.raiseIllegalCommand 0xA)

/-- OP 0xB (60_exceptions.md R120, R121). -/
def execReservedB (s : State) : Host.Outcome State Fault Refusal :=
  .next (s.raiseIllegalCommand 0xB)

/-- OP 0xC (60_exceptions.md R120, R121). -/
def execReservedC (s : State) : Host.Outcome State Fault Refusal :=
  .next (s.raiseIllegalCommand 0xC)

/-- OP 0xD (60_exceptions.md R120, R121). -/
def execReservedD (s : State) : Host.Outcome State Fault Refusal :=
  .next (s.raiseIllegalCommand 0xD)

/-- OP 0xE (60_exceptions.md R120, R121). -/
def execReservedE (s : State) : Host.Outcome State Fault Refusal :=
  .next (s.raiseIllegalCommand 0xE)

/-- OP 0xF (60_exceptions.md R120, R121). -/
def execReservedF (s : State) : Host.Outcome State Fault Refusal :=
  .next (s.raiseIllegalCommand 0xF)

end Sys2Proof.Machine
end

