-- ==== Sys2Proof/Machine/Dispatch.lean ====
section
/-!
DEFINITION. One arm per command, each one direct call of its meaning.
-/

namespace Sys2Proof.Machine

def exec (i : Instr) (s : State) : Host.Outcome State Fault Refusal :=
  match i with
  | .nop => Sys2Proof.Machine.execNop s
  | .hat d => Sys2Proof.Machine.execHat d s
  | .enc raw => Sys2Proof.Machine.execEnc raw s
  | .cinit => Sys2Proof.Machine.execCinit s
  | .cupd b => Sys2Proof.Machine.execCupd b s
  | .cread => Sys2Proof.Machine.execCread s
  | .cfin => Sys2Proof.Machine.execCfin s
  | .append w => Sys2Proof.Machine.execAppend w s
  | .frame raw => Sys2Proof.Machine.execFrame raw s
  | .reserved9 => Sys2Proof.Machine.execReserved9 s
  | .reservedA => Sys2Proof.Machine.execReservedA s
  | .reservedB => Sys2Proof.Machine.execReservedB s
  | .reservedC => Sys2Proof.Machine.execReservedC s
  | .reservedD => Sys2Proof.Machine.execReservedD s
  | .reservedE => Sys2Proof.Machine.execReservedE s
  | .reservedF => Sys2Proof.Machine.execReservedF s

end Sys2Proof.Machine
end

