-- ==== Sys2Proof/Machine/Interface.lean ====
section
/-!
DEFINITION. The block at its ports: performing one command word, one port event, and taking the issuer's next event.
-/

namespace Sys2Proof.Machine

/-- `step(S, cw)` of 00_scope.md R13: one command word applied to the state. -/
def performCommand (cw : CmdWord) (s : State) : Host.Outcome State Fault Refusal :=
  exec (decode cw) s

/-- One event at the ports. A reset discards the command presented with it (70_reset_and_hazards.md R141); power-up is a
reset (70_reset_and_hazards.md R140). -/
def performEvent (e : PortEvent) (s : State) : Host.Outcome State Fault Refusal :=
  match e with
  | .command cw => performCommand cw s
  | .reset _ => .next s.applyReset
  | .powerUp => .next s.applyReset

/-- The issuer's next event is taken and performed, in the order sent (20_memory.md R52). With nothing presented the
block waits and keeps its state (60_exceptions.md R123, 70_reset_and_hazards.md R140; notes/assumptions/2.md). -/
def takeNextEvent (s : State) : Host.Outcome State Fault Refusal :=
  match s.inputs with
  | [] => .next s
  | e :: rest => performEvent e { s with inputs := rest }

/-- A configuration with several issuers is refused (60_exceptions.md R129). -/
def stepConfigured (s : State) : Host.Outcome State Fault Refusal :=
  match s.config.issuers with
  | .one => takeNextEvent s
  | .several => .refused .multipleIssuers

/-- The one issuer presents the event `e` next, before anything it had already queued. -/
def State.present (s : State) (e : PortEvent) : State :=
  { s with inputs := e :: s.inputs, config := { s.config with issuers := .one } }

end Sys2Proof.Machine
end

