-- ==== Sys2Proof/Machine/Step.lean ====
section
/-!
DEFINITION. One step of the machine. There is no program counter and no stored program (10_state.md R25): the command a
step runs is the next one the issuer presents.
-/

namespace Sys2Proof.Machine

/-- One step: one event of the issuer, performed whole (00_scope.md R13, 70_reset_and_hazards.md R146). -/
def step (s : State) : Host.Outcome State Fault Refusal :=
  stepConfigured s

/-- The word `w` of `nbits` bits presented as the issuer's next command (notes/assumptions/1.md). -/
def State.withFetchWord (s : State) (nbits w : Nat) : State :=
  s.present (.command (BitVec.ofNat 36 (tableWordBits nbits w)))

end Sys2Proof.Machine
end

