-- ==== Sys2Proof/Machine/Assembler.lean ====
section
/-!
DEFINITION. Assembler source to command words: the text of a line, the operands it may hold, the encoded words and the
pseudo-instructions (30_encoding.md R66, R67, R68). What R66 leaves open is the model's choice: lexical details in notes/assumptions/10.md, lines it does not call an error
but the model refuses in 14.md, lines with no command in 15.md, and a source with a refused line in 16.md.
-/

namespace Sys2Proof.Machine

/-- The command a mnemonic and its operand literal name, the literal zero-extended into its field (30_encoding.md R61,
R68). -/
def commandOf (m : Mnemonic) (v : Nat) : Instr :=
  match m with
  | .nop => .nop
  | .hat => .hat (BitVec.ofNat 4 v)
  | .enc => .enc (BitVec.ofNat 32 v)
  | .cinit => .cinit
  | .cupd => .cupd (BitVec.ofNat 8 v)
  | .cread => .cread
  | .cfin => .cfin
  | .append => .append (BitVec.ofNat 32 v)
  | .frame => .frame (BitVec.ofNat 32 v)

/-- `CRCBYTES b0, …, bn−1` (30_encoding.md R67). -/
def expandCrcBytes (bs : List Byte) : List Instr :=
  .cinit :: bs.map Instr.cupd ++ [.cfin]

/-- `CRCBODY w`: the bytes of `w`, byte 0 first (30_encoding.md R67). -/
def expandCrcBody (w : Word32) : List Instr :=
  .cinit :: (bodyBytes w).map Instr.cupd ++ [.cfin]

/-- `CHECKFRAME f`: the bytes of `f`, byte 0 first, and the register before the inversion (30_encoding.md R67). -/
def expandCheckFrame (f : ResWord) : List Instr :=
  .cinit :: (frameBytes f).map Instr.cupd ++ [.cread]

/-- The words of a line that nothing is wrong with. A line with no command has none (DESIGN CHOICE,
notes/assumptions/15.md). -/
def lineWords : SourceLine → List CmdWord
  | .blank => []
  | .command m operand => [encode (commandOf m (operand.getD 0))]
  | .word36 w => [BitVec.ofNat 36 w]
  | .crcBytes bs => (expandCrcBytes (bs.map (BitVec.ofNat 8))).map encode
  | .crcBody w => (expandCrcBody (BitVec.ofNat 32 w)).map encode
  | .checkFrame f => (expandCheckFrame (BitVec.ofNat 48 f)).map encode

/-- The assembler on one line: its words, or the name of what is wrong with it (30_encoding.md R66). -/
def assemble (l : SourceLine) : Except SourceError (List CmdWord) :=
  match l.problem with
  | none => .ok (lineWords l)
  | some e => .error e

/-- A space or a tab. -/
def isBlank (c : Char) : Bool :=
  c == ' ' || c == '\t'

/-- The line up to its comment (30_encoding.md R66). -/
def dropComment (cs : List Char) : List Char :=
  cs.takeWhile (· != ';')

/-- The characters without the blanks around them. -/
def trimBlanks (cs : List Char) : List Char :=
  ((cs.dropWhile isBlank).reverse.dropWhile isBlank).reverse

/-- The characters split at every comma. -/
def splitCommas : List Char → List (List Char)
  | [] => [[]]
  | c :: rest =>
    match splitCommas rest with
    | [] => [[c]]
    | part :: parts => if c == ',' then [] :: part :: parts else (c :: part) :: parts

/-- The value of a digit of a base up to 16; both cases of the letters are read. -/
def digitValue (base : Nat) (c : Char) : Option Nat :=
  let n := c.toNat
  let v := if 48 ≤ n ∧ n ≤ 57 then n - 48 else if 65 ≤ n ∧ n ≤ 70 then n - 55 else if 97 ≤ n ∧ n ≤ 102 then n - 87 else 16
  if v < base then some v else none

/-- The digits of a literal, read after `acc`. -/
def digitsValue (base : Nat) : Nat → List Char → Option Nat
  | acc, [] => some acc
  | acc, c :: rest =>
    match digitValue base c with
    | some v => digitsValue base (acc * base + v) rest
    | none => none

/-- An unsigned literal, hexadecimal `0x…` or decimal (30_encoding.md R66). -/
def literalValue (cs : List Char) : Option Nat :=
  match cs with
  | [] => none
  | '0' :: 'x' :: [] => none
  | '0' :: 'x' :: digits => digitsValue 16 0 digits
  | digits => digitsValue 10 0 digits

/-- The values of the operands, every one a literal. -/
def literalValues : List (List Char) → Option (List Nat)
  | [] => some []
  | cs :: rest =>
    match literalValue (trimBlanks cs), literalValues rest with
    | some v, some vs => some (v :: vs)
    | _, _ => none

/-- The operand list of a line: empty, or literals with commas between them. -/
def operandValues (cs : List Char) : Option (List Nat) :=
  match cs with
  | [] => some []
  | _ => literalValues (splitCommas cs)

/-- The mnemonic a word spells (30_encoding.md R63, R66). -/
def mnemonicOf (word : List Char) : Option Mnemonic :=
  if word = "NOP".toList then some .nop
  else if word = "HAT".toList then some .hat
  else if word = "ENC".toList then some .enc
  else if word = "CINIT".toList then some .cinit
  else if word = "CUPD".toList then some .cupd
  else if word = "CREAD".toList then some .cread
  else if word = "CFIN".toList then some .cfin
  else if word = "APPEND".toList then some .append
  else if word = "FRAME".toList then some .frame
  else none

/-- A line that takes exactly one operand; none or several are refused (DESIGN CHOICE, notes/assumptions/14.md). -/
def oneOperand (make : Nat → SourceLine) (vs : List Nat) : Except SourceError SourceLine :=
  match vs with
  | [] => .error .missingOperand
  | [v] => .ok (make v)
  | _ :: _ :: _ => .error .unexpectedOperand

/-- The line that a first word and its operands make. More than one operand for a command, and a first word that is none of
the spec's, are refused (DESIGN CHOICE, notes/assumptions/14.md). -/
def lineOf (word : List Char) (vs : List Nat) : Except SourceError SourceLine :=
  match mnemonicOf word with
  | some m =>
    match vs with
    | [] => .ok (.command m none)
    | [v] => .ok (.command m (some v))
    | _ :: _ :: _ => .error .unexpectedOperand
  | none =>
    if word = ".word36".toList then oneOperand SourceLine.word36 vs
    else if word = "CRCBYTES".toList then .ok (.crcBytes vs)
    else if word = "CRCBODY".toList then oneOperand SourceLine.crcBody vs
    else if word = "CHECKFRAME".toList then oneOperand SourceLine.checkFrame vs
    else .error .unknownMnemonic

/-- A line of source text (30_encoding.md R66, R67). A line with no command is `blank` (DESIGN CHOICE,
notes/assumptions/15.md) and an operand that is no literal is refused (DESIGN CHOICE, notes/assumptions/14.md). -/
def parseLine (text : List Char) : Except SourceError SourceLine :=
  match trimBlanks (dropComment text) with
  | [] => .ok .blank
  | c :: rest =>
    let word := (c :: rest).takeWhile (fun c => !isBlank c)
    let operands := trimBlanks ((c :: rest).dropWhile (fun c => !isBlank c))
    match operandValues operands with
    | some vs => lineOf word vs
    | none => .error .badLiteral

/-- A line of source text to its command words. -/
def assembleText (text : String) : Except SourceError (List CmdWord) :=
  match parseLine text.toList with
  | .ok l => assemble l
  | .error e => .error e

/-- The lines of a source file, in order, to the words the issuer sends. R66 refuses a line and does not say what becomes of
the others. DESIGN CHOICE: one refused line refuses the whole source, which gives no words and the error of its first refused
line (notes/assumptions/16.md). -/
def assembleProgram : List String → Except SourceError (List CmdWord)
  | [] => .ok []
  | line :: rest =>
    match assembleText line, assembleProgram rest with
    | .ok ws, .ok more => .ok (ws ++ more)
    | .error e, _ => .error e
    | .ok _, .error e => .error e

/-- What assembled, where it did. -/
def assembled? : Except SourceError (List CmdWord) → Option (List CmdWord)
  | .ok ws => some ws
  | .error _ => none

/-- Why it did not assemble, where it did not. -/
def sourceError? : Except SourceError (List CmdWord) → Option SourceError
  | .ok _ => none
  | .error e => some e

end Sys2Proof.Machine
end

