-- ==== Sys2Proof/Machine/Run.lean ====
section
/-!
DEFINITION. A run: a finite sequence of command words, and what is observed of it (70_reset_and_hazards.md R149).
-/

namespace Sys2Proof.Machine

/-- The commands performed in the order sent, each complete before the next (20_memory.md R52). -/
def runCommands : List CmdWord → State → Host.Outcome State Fault Refusal
  | [], s => .next s
  | cw :: rest, s =>
    match performCommand cw s with
    | .next t => runCommands rest t
    | .fault f => .fault f
    | .refused r => .refused r

/-- The values of (RES, ERR) after each step of the run (70_reset_and_hazards.md R149). -/
def traceCommands : List CmdWord → State → List Outputs
  | [], _ => []
  | cw :: rest, s =>
    match performCommand cw s with
    | .next t => t.outputs :: traceCommands rest t
    | .fault _ => []
    | .refused _ => []

/-- The issuer's words queued at the port, the first to be presented first, before what it had already queued. -/
def State.queueCommands (s : State) (ws : List CmdWord) : State :=
  { s with inputs := ws.map PortEvent.command ++ s.inputs }

/-- The state a step left, where it left one. -/
def nextState? : Host.Outcome State Fault Refusal → Option State
  | .next t => some t
  | .fault _ => none
  | .refused _ => none

end Sys2Proof.Machine
end

