-- ==== Sys2Proof/Safety.lean ====
section
/-!
DEFINITION. The terms claims use: the classes of commands, what a legal RES is, what
CRC a run leaves, and what a fault-free run is (70_reset_and_hazards.md R149).
-/

namespace Sys2Proof

/-- The command writes RES (10_state.md R24, 70_reset_and_hazards.md R143). -/
def Instr.producesResult : Instr → Bool
  | .nop => false
  | .hat _ => true
  | .enc _ => true
  | .cinit => false
  | .cupd _ => false
  | .cread => true
  | .cfin => true
  | .append _ => true
  | .frame _ => true
  | .reserved9 => false
  | .reservedA => false
  | .reservedB => false
  | .reservedC => false
  | .reservedD => false
  | .reservedE => false
  | .reservedF => false

/-- The byte the command folds into CRC, where it is a CUPD (41_crc.md R92). -/
def Instr.foldedByte? : Instr → Option Byte
  | .nop => none
  | .hat _ => none
  | .enc _ => none
  | .cinit => none
  | .cupd b => some b
  | .cread => none
  | .cfin => none
  | .append _ => none
  | .frame _ => none
  | .reserved9 => none
  | .reservedA => none
  | .reservedB => none
  | .reservedC => none
  | .reservedD => none
  | .reservedE => none
  | .reservedF => none

/-- The command reads CRC: CUPD, CREAD and CFIN (10_state.md R22). -/
def Instr.readsCrc : Instr → Bool
  | .nop => false
  | .hat _ => false
  | .enc _ => false
  | .cinit => false
  | .cupd _ => true
  | .cread => true
  | .cfin => true
  | .append _ => false
  | .frame _ => false
  | .reserved9 => false
  | .reservedA => false
  | .reservedB => false
  | .reservedC => false
  | .reservedD => false
  | .reservedE => false
  | .reservedF => false

namespace Machine

/-- The bytes of the CUPDs among the commands, in order (70_reset_and_hazards.md R144). -/
def foldedBytes (ws : List CmdWord) : List Byte :=
  ws.filterMap (fun cw => (decode cw).foldedByte?)

/-- No command of the sequence is a CINIT. -/
def withoutCinit (ws : List CmdWord) : Bool :=
  ws.all (fun cw => decode cw != .cinit)

/-- The issuer starts with CINIT before it uses CRC (70_reset_and_hazards.md R142): no CUPD, CREAD or CFIN stands before
the first CINIT. -/
def cinitBeforeUse : List CmdWord → Bool
  | [] => true
  | cw :: rest =>
    if decode cw = .cinit then true else !(decode cw).readsCrc && cinitBeforeUse rest

/-- Some command of the sequence has a reserved opcode. -/
def hasReserved (ws : List CmdWord) : Bool :=
  ws.any (fun cw => !(decode cw).assigned)

/-- RES holds a value the commands produce (10_state.md R24, R27): no trailer and a top body nibble that is no more than
8, or a body with the trailer of that body. -/
def ResLegal (r : ResWord) : Prop :=
  (r.extractLsb' 32 16 = 0 ∧ (r.extractLsb' 28 4).toNat ≤ 8) ∨
  r.extractLsb' 32 16 = crc16 (bodyBytes (r.extractLsb' 0 32))

/-- The bytes of the CUPDs since the last CINIT, or since the start where there is none (70_reset_and_hazards.md R144). -/
def bytesSinceCinit (ws : List CmdWord) : List Byte :=
  ws.foldl (fun acc cw => if decode cw = .cinit then [] else acc ++ (decode cw).foldedByte?.toList) []

/-- The run is fault-free: ERR = 0 at its end (70_reset_and_hazards.md R149). -/
def FaultFreeRun (ws : List CmdWord) (s : State) : Prop :=
  ∃ t, runCommands ws s = .next t ∧ t.err = false

end Machine

end Sys2Proof
end

