-- ==== Sys2Proof/Certificates/Slice0/Obligations.lean ====
section
/-!
DEFINITION. The statements for the provers. Each docstring names the rule of spec/ it formalises; a clause that the spec
itself marks as derived, or that rests on a choice of the model, is said to be so.
-/

open Sys2Proof Sys2Proof.Machine

/-! ## Encoding -/

/-- Every command's word decodes to the command, every operand at every value (30_encoding.md sections 1 and 4). The word of a
reserved command is the model's choice (DESIGN CHOICE, notes/assumptions/13.md): the spec gives it no encoding, R66 writes it
raw by `.word36`. -/
def Obligations.DecodeOfEncodeIsIdentity : Prop :=
  ∀ i : Instr, decode (encode i) = i

/-- Encoding what a word decodes to gives the word back with exactly its ignored bits cleared. For the nine assigned commands
that is how the assembler writes a command (30_encoding.md section 4, "The assembler writes every ignored bit (rule R62) as
0"). For the seven reserved commands it is the model's choice (DESIGN CHOICE, notes/assumptions/13.md): the spec gives them no
encoding, R66 writes them raw by `.word36`, and the model's encoder writes their OPND bits as 0. -/
def Obligations.EncodeOfDecodeClearsIgnoredBits : Prop :=
  ∀ cw : CmdWord, encode (decode cw) = cw &&& (decode cw).usedBits

/-- Every one of the 2^36 command words selects exactly one row of the opcode map, the row of the command it decodes to
(30_encoding.md section 2, "The rows partition all 2^36 command words", the spec's own inference from R63). -/
def Obligations.EveryWordSelectsExactlyOneRow : Prop :=
  ∀ cw : CmdWord, ∃ row : OpcodeRow,
    opcodeRows.filter (fun r => r.selectedBy cw) = [row] ∧ row.mnemonic = (decode cw).mnemonic

/-- R60: OP is bits 35..32, OPND is bits 31..0, and OP alone selects the command. -/
def Obligations.OpcodeFieldAloneSelectsTheCommand : Prop :=
  (∀ cw : CmdWord, (opField cw).toNat = cw.toNat / 2 ^ 32 ∧ (opndField cw).toNat = cw.toNat % 2 ^ 32) ∧
  (∀ cw cw' : CmdWord, opField cw = opField cw' → (decode cw).mnemonic = (decode cw').mnemonic)

/-- R61: each operand is the low bits of OPND, unsigned, neither extended, scaled nor shifted. -/
def Obligations.OperandsAreTheLowBitsOfOpnd : Prop :=
  ∀ opnd : Word32,
    decode (makeWord 0x0 opnd) = .nop ∧
    decode (makeWord 0x1 opnd) = .hat (BitVec.ofNat 4 (opnd.toNat % 16)) ∧
    decode (makeWord 0x2 opnd) = .enc opnd ∧
    decode (makeWord 0x3 opnd) = .cinit ∧
    decode (makeWord 0x4 opnd) = .cupd (BitVec.ofNat 8 (opnd.toNat % 256)) ∧
    decode (makeWord 0x5 opnd) = .cread ∧
    decode (makeWord 0x6 opnd) = .cfin ∧
    decode (makeWord 0x7 opnd) = .append opnd ∧
    decode (makeWord 0x8 opnd) = .frame opnd

/-- R62: two words that agree on the bits the first one's command uses have the same effect, and that effect is no stop. -/
def Obligations.IgnoredOperandBitsNeverMatter : Prop :=
  ∀ (cw cw' : CmdWord) (s : State),
    cw &&& (decode cw).usedBits = cw' &&& (decode cw).usedBits →
    performCommand cw s = performCommand cw' s ∧ ∃ t, performCommand cw s = .next t

/-- R64: OP 0x9..0xF are the reserved ones and each raises IllegalCommand; under an assigned OP no OPND value does. -/
def Obligations.ReservedOpcodesAreExactlyNineToFifteen : Prop :=
  ∀ (op : Opcode) (opnd : Word32) (s : State),
    ((decode (makeWord op opnd)).assigned = false ↔ 9 ≤ op.toNat) ∧
    (9 ≤ op.toNat → performCommand (makeWord op opnd) s = .next { s with err := true }) ∧
    (op.toNat < 9 → ∃ t, performCommand (makeWord op opnd) s = .next t ∧ t.err = s.err)

/-- Words written out in the spec decode to the commands they stand for (30_encoding.md section 4, 95_test_vectors.md
section 2); a sanity statement. -/
def Obligations.SpecWordsDecode : Prop :=
  decode 0x000000000 = .nop ∧ decode 0x0FFFFFFFF = .nop ∧
  decode 0x100000003 = .hat 0x3 ∧ decode 0x1FFFFFFF3 = .hat 0x3 ∧
  decode 0x200000010 = .enc 0x00000010 ∧ decode 0x300000000 = .cinit ∧
  decode 0x400000080 = .cupd 0x80 ∧ decode 0x4ABCDEF00 = .cupd 0x00 ∧
  decode 0x500000000 = .cread ∧ decode 0x600000000 = .cfin ∧
  decode 0x780000000 = .append 0x80000000 ∧ decode 0x800000000 = .frame 0 ∧
  decode 0x9DEADBEEF = .reserved9 ∧ decode 0xF12345678 = .reservedF

/-- 30_encoding.md section 4: an operand that fits its field is encoded after its opcode (the encoded word is the spec's own
inference in R68); one that does not is refused and not truncated, and so is an operand for a command that takes none. The
third clause, the refusal of a missing operand, is the model's choice (notes/assumptions/14.md): R66 does not call it an
error. -/
def Obligations.AssemblerEncodesOrRefusesByName : Prop :=
  ∀ m : Mnemonic,
    (∀ width v, m.operandWidth = some width → v < 2 ^ width →
      ∃ cw, assemble (.command m (some v)) = .ok [cw] ∧
        cw.toNat = (commandOf m v).opcode.toNat * 2 ^ 32 + v ∧ decode cw = commandOf m v) ∧
    (∀ width v, m.operandWidth = some width → 2 ^ width ≤ v →
      assemble (.command m (some v)) = .error .operandTooLarge) ∧
    (∀ width, m.operandWidth = some width → assemble (.command m none) = .error .missingOperand) ∧
    (m.operandWidth = none →
      (∃ cw, assemble (.command m none) = .ok [cw] ∧
        cw.toNat = (commandOf m 0).opcode.toNat * 2 ^ 32 ∧ decode cw = commandOf m 0) ∧
      ∀ v, assemble (.command m (some v)) = .error .unexpectedOperand)

/-! ## The hat table and the report encoder -/

/-- R41: HATT[d] for the set of directions whose bit is set, under every DPAD_MAP, and its range. -/
def Obligations.HatTableFollowsTheDirections : Prop :=
  ∀ (m : DpadMap) (d : Nibble),
    let set := fun x : Direction => d.getLsbD (m.bitOf x).val
    (set .up = true ∧ set .down = true → hatt m d = 8) ∧
    (set .left = true ∧ set .right = true → hatt m d = 8) ∧
    (set .up = false ∧ set .right = false ∧ set .down = false ∧ set .left = false → hatt m d = 8) ∧
    (set .up = true ∧ set .right = false ∧ set .down = false ∧ set .left = false → hatt m d = 0) ∧
    (set .up = false ∧ set .right = true ∧ set .down = false ∧ set .left = false → hatt m d = 2) ∧
    (set .up = false ∧ set .right = false ∧ set .down = true ∧ set .left = false → hatt m d = 4) ∧
    (set .up = false ∧ set .right = false ∧ set .down = false ∧ set .left = true → hatt m d = 6) ∧
    (set .up = true ∧ set .right = true ∧ set .down = false ∧ set .left = false → hatt m d = 1) ∧
    (set .up = false ∧ set .right = true ∧ set .down = true ∧ set .left = false → hatt m d = 3) ∧
    (set .up = false ∧ set .right = false ∧ set .down = true ∧ set .left = true → hatt m d = 5) ∧
    (set .up = true ∧ set .right = false ∧ set .down = false ∧ set .left = true → hatt m d = 7) ∧
    (hatt m d).toNat ≤ 8

/-- Under every DPAD_MAP, which is a bijection (R8), each hat value 0..8 is the value of some DpadCode (R41). -/
def Obligations.HatTableReachesEveryHatValue : Prop :=
  ∀ (m : DpadMap) (v : Nibble), v.toNat ≤ 8 → ∃ d : Nibble, hatt m d = v

/-- The table of R42, the spec's own inference from R41 and R8: HATT under the default DPAD_MAP. -/
def Obligations.HatTableUnderTheDefaultMap : Prop :=
  (List.range 16).map (fun d => (hatt DpadMap.default (BitVec.ofNat 4 d)).toNat) =
    [8, 0, 2, 1, 4, 8, 3, 8, 6, 7, 8, 8, 5, 8, 8, 8]

/-- R81: the body word, and its four bytes one by one. -/
def Obligations.EncodedBodyByteByByte : Prop :=
  ∀ (m : DpadMap) (raw : Word32),
    encodeBody m raw =
      ((raw.extractLsb' 4 28).setWidth 32 ||| ((hatt m (raw.extractLsb' 0 4)).setWidth 32 <<< 28)) ∧
    byteLane (encodeBody m raw) 0 = raw.extractLsb' 4 8 ∧
    byteLane (encodeBody m raw) 1 = raw.extractLsb' 12 8 ∧
    byteLane (encodeBody m raw) 2 = raw.extractLsb' 20 8 ∧
    (byteLane (encodeBody m raw) 3).toNat =
      (hatt m (raw.extractLsb' 0 4)).toNat * 16 + (raw.extractLsb' 28 4).toNat

/-- ButtonBitmap bit i, which is raw[i+4], lands at body bit i for i = 0..27 (40_hat_encoder.md section 2, R82). -/
def Obligations.ButtonBitsLandInOrder : Prop :=
  ∀ (m : DpadMap) (raw : Word32) (i : Nat), i < 28 →
    (encodeBody m raw).getLsbD i = raw.getLsbD (i + 4)

/-- The encoder's laws (40_hat_encoder.md section 4, the spec's own inference R84): the hat nibble and its range, null
for an opposing pair, the all-ones boundary, and equal bodies for equal buttons with a null direction code. -/
def Obligations.EncoderLawsHold : Prop :=
  (∀ (m : DpadMap) (raw : Word32),
    (encodeBody m raw).extractLsb' 28 4 = hatt m (raw.extractLsb' 0 4) ∧
    ((encodeBody m raw).extractLsb' 28 4).toNat ≤ 8) ∧
  (∀ (m : DpadMap) (raw : Word32),
    raw.getLsbD (m.bitOf .up).val = true ∧ raw.getLsbD (m.bitOf .down).val = true ∨
      raw.getLsbD (m.bitOf .left).val = true ∧ raw.getLsbD (m.bitOf .right).val = true →
    (encodeBody m raw).extractLsb' 28 4 = 8) ∧
  (∀ m : DpadMap, encodeBody m 0xFFFFFFFF = 0x8FFFFFFF) ∧
  (∀ (m : DpadMap) (raw raw' : Word32), raw.extractLsb' 4 28 = raw'.extractLsb' 4 28 →
    hatt m (raw.extractLsb' 0 4) = 8 → hatt m (raw'.extractLsb' 0 4) = 8 →
    encodeBody m raw = encodeBody m raw') ∧
  (encodeBody DpadMap.default 0x0 = 0x80000000 ∧ encodeBody DpadMap.default 0x5 = 0x80000000 ∧
    encodeBody DpadMap.default 0xA = 0x80000000 ∧ encodeBody DpadMap.default 0xF = 0x80000000)

/-- The encoder masks nothing: each of the 32 operand bits can change the body, under every DPAD_MAP
(40_hat_encoder.md section 4, R85). -/
def Obligations.EncoderUsesAllThirtyTwoBits : Prop :=
  ∀ (m : DpadMap) (i : Nat), i < 32 →
    ∃ raw : Word32, encodeBody m (raw ^^^ (1#32 <<< i)) ≠ encodeBody m raw

/-! ## The CRC table and the CRC of byte sequences -/

/-- 20_memory.md section 3: CRCT[n] is s applied eight times to zext_16(n), and it is the only table whose update agrees with the bit-serial
division on every register value and byte (the second clause is the spec's own inference in R43, and rests on R96's). -/
def Obligations.CrcTableIsEightDivisionSteps : Prop :=
  let s := fun c : CrcWord => if c.getLsbD 0 = true then (c >>> 1) ^^^ 0x8408 else c >>> 1
  (∀ n : Byte, crct n = s (s (s (s (s (s (s (s (n.setWidth 16))))))))) ∧
  (∀ table : Byte → CrcWord,
    (∀ (r : CrcWord) (b : Byte), (r >>> 8) ^^^ table ((r ^^^ b.setWidth 16).extractLsb' 0 8) =
      s (s (s (s (s (s (s (s (r ^^^ b.setWidth 16)))))))) ) ↔ table = crct)

/-- The listed table (R44, the spec's own inference from R43): 256 entries, each the table's entry. -/
def Obligations.CrcTableIsTheListedTable : Prop :=
  crctListing.length = 256 ∧ ∀ n : Byte, crctListing[n.toNat]? = some (crct n)

/-- The table is linear over XOR (20_memory.md section 3, the spec's own inference in R44). -/
def Obligations.CrcTableIsLinear : Prop :=
  ∀ a b : Byte, crct (a ^^^ b) = crct a ^^^ crct b

/-- The update is linear over XOR in the pair (r, b) (41_crc.md section 4, the spec's own inference in R98). -/
def Obligations.CrcUpdateIsLinear : Prop :=
  ∀ (r1 r2 : CrcWord) (b1 b2 : Byte),
    crcUpdate (r1 ^^^ r2) (b1 ^^^ b2) = crcUpdate r1 b1 ^^^ crcUpdate r2 b2

/-- The table-driven update equals eight steps of the bit-serial reflected division, for every register value and byte
(41_crc.md section 3, the spec's own inference R96). -/
def Obligations.TableUpdateIsBitSerialDivision : Prop :=
  ∀ (r : CrcWord) (b : Byte), crcUpdate r b = crcShift^[8] (r ^^^ b.setWidth 16)

/-- Every 16-bit value is a value of CRC that two updates reach from 0xFFFF (10_state.md section 2: "Every 16-bit value is
legal in CRC"). -/
def Obligations.EveryCrcValueIsReached : Prop :=
  ∀ c : CrcWord, ∃ b0 b1 : Byte, crcReg [b0, b1] = c

/-- CINIT, a CUPD for each byte in order, and CFIN leave crc16 of the bytes in RES and crc_reg of them in CRC, from every
state (41_crc.md section 3, the spec's own inference in R95). -/
def Obligations.IncrementalCommandsComputeCrc16 : Prop :=
  crcReg [] = 0xFFFF ∧
  (∀ (bytes : List Byte) (b : Byte), crcReg (bytes ++ [b]) = crcUpdate (crcReg bytes) b) ∧
  (∀ bytes : List Byte, crc16 bytes = ~~~ crcReg bytes) ∧
  ∀ (bytes : List Byte) (s : State),
    runCommands (encode .cinit :: bytes.map (fun b => encode (.cupd b)) ++ [encode .cfin]) s =
      .next { s with crc := crcReg bytes, res := (crc16 bytes).setWidth 48 }

/-- The residue: a byte sequence followed by its two trailer bytes, low byte first, leaves 0xF0B8, and 0x0F47 after the
inversion (41_crc.md section 3, the spec's own inference R97; 90_conflicts.md C1 for the value). -/
def Obligations.EveryCodewordHasTheResidue : Prop :=
  ∀ bytes : List Byte,
    crcReg (bytes ++ [(crc16 bytes).extractLsb' 0 8, (crc16 bytes).extractLsb' 8 8]) = 0xF0B8 ∧
    crc16 (bytes ++ [(crc16 bytes).extractLsb' 0 8, (crc16 bytes).extractLsb' 8 8]) = 0x0F47

/-- The converse of the residue: two bytes after a sequence leave 0xF0B8 only if they are its trailer, which is what
makes the fixed value detect a corrupted trailer (90_conflicts.md C1; derived from 41_crc.md section 3). -/
def Obligations.OnlyTheTrailerGivesTheResidue : Prop :=
  ∀ (bytes : List Byte) (t0 t1 : Byte),
    crcReg (bytes ++ [t0, t1]) = 0xF0B8 ↔
      t0 = (crc16 bytes).extractLsb' 0 8 ∧ t1 = (crc16 bytes).extractLsb' 8 8

/-- R110: the frame word is the body with its CRC above it; its six bytes are the body's and then the CRC's, low byte
first; and APPEND's result is the same whatever CRC holds. -/
def Obligations.AppendedFrameIsBodyThenTrailer : Prop :=
  (∀ w : Word32,
    (appendCrc w).extractLsb' 0 32 = w ∧
    (appendCrc w).extractLsb' 32 16 = crc16 [byteLane w 0, byteLane w 1, byteLane w 2, byteLane w 3] ∧
    frameBytes (appendCrc w) =
      [byteLane w 0, byteLane w 1, byteLane w 2, byteLane w 3,
       (crc16 (bodyBytes w)).extractLsb' 0 8, (crc16 (bodyBytes w)).extractLsb' 8 8]) ∧
  (∀ (w : Word32) (s : State) (c : CrcWord),
    exec (.append w) { s with crc := c } = .next { s with crc := c, res := appendCrc w })

/-- Every frame's layout and its residue (42_frame.md section 3, the spec's own inference R114). -/
def Obligations.EveryFrameHasItsLayoutAndResidue : Prop :=
  ∀ (m : DpadMap) (raw : Word32),
    let f := appendCrc (encodeBody m raw)
    let c := crc16 (bodyBytes (encodeBody m raw))
    byteLane f 0 = raw.extractLsb' 4 8 ∧ byteLane f 1 = raw.extractLsb' 12 8 ∧
    byteLane f 2 = raw.extractLsb' 20 8 ∧
    byteLane f 3 = ((raw.extractLsb' 28 4).setWidth 8 ||| ((hatt m (raw.extractLsb' 0 4)).setWidth 8 <<< 4)) ∧
    byteLane f 4 = c.extractLsb' 0 8 ∧ byteLane f 5 = c.extractLsb' 8 8 ∧
    (frameBytes f).length = 6 ∧ crcReg (frameBytes f) = 0xF0B8

/-! ## The commands -/

/-- R113: NOP writes nothing, whatever its OPND; the all-zero word is NOP. -/
def Obligations.NopLeavesTheState : Prop :=
  ∀ s : State,
    exec .nop s = .next s ∧ (∀ opnd : Word32, performCommand (makeWord 0x0 opnd) s = .next s) ∧
    performCommand 0x000000000 s = .next s

/-- 40_hat_encoder.md section 1: HAT writes the hat value to RES, zero-extended, and nothing else, for every DPAD_MAP and every ignored bit; no
direction and every opposing pair give 8; the upper bits are 0 and the value is at most 8 (the last clause is the spec's
own inference in R80). -/
def Obligations.HatWritesTheHatValue : Prop :=
  ∀ s : State,
    (∀ d : Nibble, exec (.hat d) s = .next { s with res := (hatt s.config.dpadMap d).setWidth 48 }) ∧
    (∀ opnd : Word32, performCommand (makeWord 0x1 opnd) s =
      .next { s with res := (hatt s.config.dpadMap (opnd.extractLsb' 0 4)).setWidth 48 }) ∧
    exec (.hat 0x0) s = .next { s with res := 0x000000000008 } ∧
    (∀ d : Nibble,
      d.getLsbD (s.config.dpadMap.bitOf .up).val = true ∧ d.getLsbD (s.config.dpadMap.bitOf .down).val = true ∨
        d.getLsbD (s.config.dpadMap.bitOf .left).val = true ∧ d.getLsbD (s.config.dpadMap.bitOf .right).val = true →
      exec (.hat d) s = .next { s with res := 0x000000000008 }) ∧
    (s.config.dpadMap = DpadMap.default →
      performCommand 0x100000003 s = .next { s with res := 0x000000000001 } ∧
      ∀ d ∈ [(0x5 : Nibble), 0x7, 0xA, 0xB, 0xD, 0xE, 0xF],
        exec (.hat d) s = .next { s with res := 0x000000000008 }) ∧
    (∀ d t, exec (.hat d) s = .next t → t.res.toNat ≤ 8)

/-- 40_hat_encoder.md section 3: ENC writes the body word to RES, zero-extended, and nothing else, for every DPAD_MAP; R83's
corner cases (UP alone is the spec's own inference) and its example. -/
def Obligations.EncWritesTheBody : Prop :=
  ∀ s : State,
    (∀ raw : Word32,
      exec (.enc raw) s = .next { s with res := (encodeBody s.config.dpadMap raw).setWidth 48 } ∧
      performCommand (makeWord 0x2 raw) s =
        .next { s with res := (encodeBody s.config.dpadMap raw).setWidth 48 }) ∧
    exec (.enc 0x00000000) s = .next { s with res := 0x000080000000 } ∧
    exec (.enc 0xFFFFFFFF) s = .next { s with res := 0x00008FFFFFFF } ∧
    performCommand 0x200000010 s = .next { s with res := 0x000080000001 } ∧
    (s.config.dpadMap = DpadMap.default → exec (.enc 0x00000001) s = .next { s with res := 0 }) ∧
    (∀ raw t, exec (.enc raw) s = .next t → t.res.extractLsb' 32 16 = 0)

/-- R91: CINIT writes 0xFFFF to CRC and nothing else, whatever its OPND; it is idempotent. -/
def Obligations.CinitStartsTheCrc : Prop :=
  ∀ s : State,
    exec .cinit s = .next { s with crc := 0xFFFF } ∧
    (∀ opnd : Word32, performCommand (makeWord 0x3 opnd) s = .next { s with crc := 0xFFFF }) ∧
    exec .cinit { s with crc := 0xFFFF } = .next { s with crc := 0xFFFF }

/-- R90 and R92: CUPD folds its byte into CRC by the table and writes nothing else, whatever its ignored bits; the rule's
corner cases and example. -/
def Obligations.CupdFoldsOneByte : Prop :=
  ∀ s : State,
    (∀ b : Byte, exec (.cupd b) s =
      .next { s with crc := (s.crc >>> 8) ^^^ crct ((s.crc ^^^ b.setWidth 16).extractLsb' 0 8) }) ∧
    (∀ opnd : Word32, performCommand (makeWord 0x4 opnd) s = exec (.cupd (opnd.extractLsb' 0 8)) s) ∧
    exec (.cupd 0xFF) { s with crc := 0xFFFF } = .next { s with crc := 0x00FF } ∧
    exec (.cupd 0x00) { s with crc := 0x0000 } = .next { s with crc := 0x0000 } ∧
    performCommand 0x400000000 { s with crc := 0xFFFF } = .next { s with crc := 0x0F87 } ∧
    exec (.cupd 0x00) { s with crc := 0x0F87 } ≠ .next { s with crc := 0x0F87 } ∧
    exec (.cupd 0x00) State.reset = .next { State.reset with crc := 0x0F87 }

/-- R93: CREAD writes CRC to RES, zero-extended, and nothing else, whatever its OPND; right after CINIT it reads 0xFFFF,
and the rule's example. -/
def Obligations.CreadReadsTheRegister : Prop :=
  ∀ s : State,
    exec .cread s = .next { s with res := s.crc.setWidth 48 } ∧
    (∀ opnd : Word32, performCommand (makeWord 0x5 opnd) s = .next { s with res := s.crc.setWidth 48 }) ∧
    runCommands [0x300000000, 0x500000000] s = .next { s with crc := 0xFFFF, res := 0x00000000FFFF } ∧
    runCommands [0x300000000, 0x400000000, 0x500000000] s =
      .next { s with crc := 0x0F87, res := 0x000000000F87 }

/-- R94: CFIN writes the inverted CRC to RES, zero-extended, and nothing else (CRC stays), whatever its OPND; the rule's
corner cases and example. -/
def Obligations.CfinReadsTheInvertedRegister : Prop :=
  ∀ s : State,
    exec .cfin s = .next { s with res := (~~~ s.crc).setWidth 48 } ∧
    (∀ opnd : Word32, performCommand (makeWord 0x6 opnd) s = .next { s with res := (~~~ s.crc).setWidth 48 }) ∧
    (∃ t, exec .cfin s = .next t ∧ byteLane t.res 0 = (~~~ s.crc).extractLsb' 0 8 ∧
      byteLane t.res 1 = (~~~ s.crc).extractLsb' 8 8 ∧ exec .cfin t = .next t ∧
      ∀ b : Byte, exec (.cupd b) t = .next { t with crc := crcUpdate s.crc b }) ∧
    runCommands [0x300000000, 0x600000000] s = .next { s with crc := 0xFFFF, res := 0 } ∧
    runCommands [0x300000000, 0x400000000, 0x400000000, 0x400000000, 0x400000080, 0x600000000] s =
      .next { s with crc := 0x8729, res := 0x0000000078D6 }

/-- 42_frame.md section 2: APPEND writes the frame of its body word to RES and nothing else, whatever CRC holds and whatever
the body's high nibble; R111's corner cases (0xFFFFFFFF is the spec's own inference) and example. -/
def Obligations.AppendWritesTheFrame : Prop :=
  ∀ s : State,
    (∀ w : Word32, exec (.append w) s = .next { s with res := appendCrc w } ∧
      performCommand (makeWord 0x7 w) s = .next { s with res := appendCrc w }) ∧
    exec (.append 0x00000000) s = .next { s with res := 0xFCDE00000000 } ∧
    exec (.append 0xFFFFFFFF) s = .next { s with res := 0x0F47FFFFFFFF } ∧
    performCommand 0x780000000 s = .next { s with res := 0x78D680000000 }

/-- 42_frame.md section 2: FRAME writes the frame of the encoded report to RES and nothing else, for every DPAD_MAP; it equals
ENC followed by APPEND of ENC's result (the spec's own inference in R112); the rule's fixtures. -/
def Obligations.FrameWritesTheEncodedFrame : Prop :=
  ∀ s : State,
    (∀ raw : Word32,
      exec (.frame raw) s = .next { s with res := appendCrc (encodeBody s.config.dpadMap raw) } ∧
      performCommand (makeWord 0x8 raw) s =
        .next { s with res := appendCrc (encodeBody s.config.dpadMap raw) }) ∧
    (∀ raw : Word32, ∃ t, exec (.enc raw) s = .next t ∧
      exec (.append (t.res.extractLsb' 0 32)) t = exec (.frame raw) s) ∧
    performCommand 0x800000000 s = .next { s with res := 0x78D680000000 } ∧
    exec (.frame 0xFFFFFFFF) s = .next { s with res := 0x7CC08FFFFFFF }

/-- R120 and R121: a command raises IllegalCommand exactly when its OP is 0x9..0xF, and all it then does is set ERR; no
command word, operand or opcode is recorded, and ERR = 1 after commands from reset means that at least one raised it. -/
def Obligations.ReservedCommandsSetErrAlone : Prop :=
  (∀ s : State,
    exec .reserved9 s = .next { s with err := true } ∧ exec .reservedA s = .next { s with err := true } ∧
    exec .reservedB s = .next { s with err := true } ∧ exec .reservedC s = .next { s with err := true } ∧
    exec .reservedD s = .next { s with err := true } ∧ exec .reservedE s = .next { s with err := true } ∧
    exec .reservedF s = .next { s with err := true }) ∧
  (∀ (cw : CmdWord) (s : State), s.err = false →
    ∃ t, performCommand cw s = .next t ∧ (t.err = true ↔ 9 ≤ (opField cw).toNat)) ∧
  (∀ ws : List CmdWord, ∃ t, runCommands ws State.reset = .next t ∧
    (t.err = true ↔ ∃ cw ∈ ws, 9 ≤ (opField cw).toNat)) ∧
  illegalCommandCause = 1

/-- R122: no assigned command raises an exception, for any operand and in any state: it goes on with ERR as it was; NOP has
no effect at all. -/
def Obligations.AssignedCommandsRaiseNothing : Prop :=
  (∀ (i : Instr) (s : State), i.assigned = true → ∃ t, exec i s = .next t ∧ t.err = s.err) ∧
  (∀ s : State, exec .nop s = .next s)

/-! ## The whole machine -/

/-- R127: every command is available at all times: none stops, in any state. -/
def Obligations.EveryCommandIsAvailable : Prop :=
  ∀ (i : Instr) (s : State), ∃ t, exec i s = .next t

/-- R22: what each command does to CRC, and that the commands which do not use CRC have the same effect whatever it
holds. -/
def Obligations.CrcIsAccessedAsListed : Prop :=
  (∀ (i : Instr) (s : State), ∃ t, exec i s = .next t ∧
    t.crc = (match i with
      | .cinit => 0xFFFF
      | .cupd b => crcUpdate s.crc b
      | _ => s.crc)) ∧
  (∀ s : State, (∃ t, exec .cread s = .next t ∧ t.res = s.crc.setWidth 48) ∧
    ∃ t, exec .cfin s = .next t ∧ t.res = (~~~ s.crc).setWidth 48) ∧
  (∀ (i : Instr) (s t : State) (c : CrcWord), i.readsCrc = false → i ≠ .cinit → exec i s = .next t →
    exec i { s with crc := c } = .next { t with crc := c })

/-- R24: the layout of RES for each result-producing command; all others leave RES. -/
def Obligations.ResultsAreLaidOutAsListed : Prop :=
  ∀ (i : Instr) (s : State), ∃ t, exec i s = .next t ∧
    (match i with
      | .hat d => t.res.extractLsb' 32 16 = 0 ∧ t.res.extractLsb' 0 32 = (hatt s.config.dpadMap d).setWidth 32
      | .enc raw => t.res.extractLsb' 32 16 = 0 ∧ t.res.extractLsb' 0 32 = encodeBody s.config.dpadMap raw
      | .cread => t.res.extractLsb' 32 16 = 0 ∧ t.res.extractLsb' 0 32 = s.crc.setWidth 32
      | .cfin => t.res.extractLsb' 32 16 = 0 ∧ t.res.extractLsb' 0 32 = (~~~ s.crc).setWidth 32
      | .append w => t.res.extractLsb' 32 16 = crc16 (bodyBytes w) ∧ t.res.extractLsb' 0 32 = w
      | .frame raw => t.res.extractLsb' 32 16 = crc16 (bodyBytes (encodeBody s.config.dpadMap raw)) ∧
          t.res.extractLsb' 0 32 = encodeBody s.config.dpadMap raw
      | _ => t.res = s.res)

/-- R26: reserved opcodes set ERR, no command clears it, no command's other effects depend on it, reset clears it, and the
output shows it. -/
def Obligations.ErrIsStickyAndUnread : Prop :=
  (∀ (op : Opcode) (opnd : Word32) (s : State), 9 ≤ op.toNat →
    ∃ t, performCommand (makeWord op opnd) s = .next t ∧ t.err = true) ∧
  (∀ (i : Instr) (s t : State), exec i s = .next t → s.err = true → t.err = true) ∧
  (∀ (i : Instr) (s t : State) (b : Bool), exec i s = .next t →
    ∃ e, exec i { s with err := b } = .next { t with err := e }) ∧
  (∀ (s : State) (presented : Option CmdWord) (rest : List PortEvent), s.config.issuers = .one →
    s.inputs = .reset presented :: rest → ∃ t, step s = .next t ∧ t.err = false) ∧
  (∀ s : State, s.outputs.err = s.err)

/-- The frame of every command: RES only by a result-producing command, CRC only by CINIT and CUPD, ERR only by a reserved
one, and never the queued events or the parameters (10_state.md sections 2 to 4; 70_reset_and_hazards.md section 3). -/
def Obligations.EveryCommandKeepsTheRest : Prop :=
  ∀ (i : Instr) (s t : State), exec i s = .next t →
    (i.producesResult = false → t.res = s.res) ∧
    (i ≠ .cinit → i.foldedByte? = none → t.crc = s.crc) ∧
    (i.assigned = true → t.err = s.err) ∧
    t.inputs = s.inputs ∧ t.config = s.config

/-- Every command but CUPD is idempotent, and CUPD is not. For HAT, ENC, CINIT, CREAD, CFIN, APPEND, FRAME, NOP and CUPD this
is the spec's own inference in R50 (20_memory.md section 5). For the seven reserved commands, which R50 does not list, it
follows from 60_exceptions.md sections 1 and 4: a reserved command only sets ERR (R121), and a second one while ERR = 1
changes nothing (R126). -/
def Obligations.AllButCupdAreIdempotent : Prop :=
  (∀ (i : Instr) (s t : State), i.foldedByte? = none → exec i s = .next t → exec i t = .next t) ∧
  ∃ (b : Byte) (s t : State), exec (.cupd b) s = .next t ∧ exec (.cupd b) t ≠ .next t

/-- R30: the block's three elements after reset, and the ROMs, which reset does not affect (CRCT is no function of the
state). -/
def Obligations.ResetStateIsAsListed : Prop :=
  State.reset.crc = 0xFFFF ∧ State.reset.res = 0x000000000000 ∧ State.reset.err = false ∧
  ∀ s : State, s.applyReset.crc = 0xFFFF ∧ s.applyReset.res = 0x000000000000 ∧ s.applyReset.err = false ∧
    ∀ d : Nibble, hatt s.applyReset.config.dpadMap d = hatt s.config.dpadMap d

/-- A step performs the command of the word the issuer presents next, at the state without that event (00_scope.md R13,
10_state.md R25); the host's placing of a word is such a presentation (notes/assumptions/1.md, the model's choice). -/
def Obligations.StepPerformsThePresentedCommand : Prop :=
  (∀ (s : State) (cw : CmdWord) (rest : List PortEvent) (i : Instr), s.config.issuers = .one →
    s.inputs = .command cw :: rest → decode cw = i → step s = exec i { s with inputs := rest }) ∧
  (∀ (s : State) (nbits w : Nat) (i : Instr), s.config.issuers = .one →
    decodeTableWord nbits w = some i → step (s.withFetchWord nbits w) = exec i s)

/-- With nothing presented the block waits and keeps its state: the model's choice of what such a step is
(notes/assumptions/2.md), after 60_exceptions.md section 2, "it acts only when the issuer presents a command". -/
def Obligations.IdleBlockKeepsItsState : Prop :=
  ∀ s : State, s.config.issuers = .one → s.inputs = [] → step s = .next s

/-- R140 and R141: a reset request, with or without a command word presented in the same step, and a power-up set CRC, RES
and ERR to their reset values and change nothing else; the command is discarded. -/
def Obligations.ResetDiscardsThePresentedCommand : Prop :=
  ∀ (s : State) (e : PortEvent) (rest : List PortEvent), s.config.issuers = .one → s.inputs = e :: rest →
    (e = .powerUp ∨ ∃ presented, e = .reset presented) →
    step s = .next { s with crc := 0xFFFF, res := 0, err := false, inputs := rest }

/-- R129: a configuration with several issuers is refused, and no other is. -/
def Obligations.SeveralIssuersAreRefused : Prop :=
  ∀ s : State, step s = .refused .multipleIssuers ↔ s.config.issuers = .several

/-- R126: a reserved command while ERR = 1 changes nothing, and a step clears ERR only by a reset. -/
def Obligations.OnlyResetClearsErr : Prop :=
  (∀ (cw : CmdWord) (s : State), 9 ≤ (opField cw).toNat → s.err = true → performCommand cw s = .next s) ∧
  (∀ s t : State, step s = .next t → s.err = true → t.err = false →
    ∃ e rest, s.inputs = e :: rest ∧ (e = .powerUp ∨ ∃ presented, e = .reset presented))

/-- R45: no step, reset among them, changes a ROM: HATT is the same function of its index after it (CRCT is no function of
the state); the parameters stay. -/
def Obligations.StepKeepsTheRoms : Prop :=
  ∀ s t : State, step s = .next t →
    t.config = s.config ∧ ∀ d : Nibble, hatt t.config.dpadMap d = hatt s.config.dpadMap d

/-- An invariant of every step: RES holds a value the commands produce, that is a result with no trailer and a top nibble
of at most 8, or a body with the right CRC above it (10_state.md sections 3 and 5). -/
def Obligations.StepKeepsResLegal : Prop :=
  ∀ s t : State, ResLegal s.res → step s = .next t → ResLegal t.res

/-- RES is legal after reset (10_state.md section 7). -/
def Obligations.ResetResIsLegal : Prop :=
  ResLegal State.reset.res

/-- R52: commands take effect in the order sent: running the step function over the issuer's queued words is performing
them one by one, each on the state all earlier ones left, and the outputs after a command show its writes. -/
def Obligations.CommandsTakeEffectInOrder : Prop :=
  (∀ (ws : List CmdWord) (s : State), s.config.issuers = .one →
    Host.Core.run Sys2Proof.core ws.length (s.queueCommands ws) = runCommands ws s) ∧
  (∀ (ws : List CmdWord) (cw : CmdWord) (s t u : State), runCommands ws s = .next t →
    performCommand cw t = .next u →
    runCommands (ws ++ [cw]) s = .next u ∧
    traceCommands (ws ++ [cw]) s = traceCommands ws s ++ [{ res := u.res, err := u.err }])

/-- A run's final ERR is 1 exactly if it was or some command is reserved; fault-free at the end is fault-free after every
step (70_reset_and_hazards.md section 5, the spec's own inference in R149). -/
def Obligations.RunIsFaultFreeIffNoReservedCommand : Prop :=
  (∀ (ws : List CmdWord) (s : State), ∃ t, runCommands ws s = .next t ∧ t.err = (s.err || hasReserved ws)) ∧
  (∀ (ws : List CmdWord) (s : State), s.err = false →
    (FaultFreeRun ws s ↔ ∀ o ∈ traceCommands ws s, o.err = false))

/-- CRC after a run is that of the CUPD bytes since the last CINIT, whatever stands between them and whatever came before
(70_reset_and_hazards.md section 3, the spec's own inferences R144, R145 and R147; 10_state.md section 2). -/
def Obligations.CrcIsThatOfTheBytesSinceCinit : Prop :=
  (∀ (ws : List CmdWord) (s : State), withoutCinit ws = true →
    ∃ t, runCommands ws s = .next t ∧ t.crc = crcFold s.crc (foldedBytes ws)) ∧
  (∀ (before after : List CmdWord) (cw : CmdWord) (s : State), decode cw = .cinit → withoutCinit after = true →
    ∃ t, runCommands (before ++ cw :: after) s = .next t ∧ t.crc = crcReg (foldedBytes after)) ∧
  (∀ ws : List CmdWord, ∃ t, runCommands ws State.reset = .next t ∧ t.crc = crcReg (bytesSinceCinit ws))

/-- A result stays in RES until the next result-producing command (70_reset_and_hazards.md section 3, the spec's own
inference R143). -/
def Obligations.ResultStaysUntilTheNextResult : Prop :=
  ∀ (before after : List CmdWord) (cw : CmdWord) (s t u : State), runCommands before s = .next t →
    performCommand cw t = .next u → (∀ w ∈ after, (decode w).producesResult = false) →
    ∃ v, runCommands (before ++ cw :: after) s = .next v ∧ v.res = u.res

/-- A run that issues CINIT before it uses CRC shows the same outputs whatever CRC held before, and after its CINIT the
same state (70_reset_and_hazards.md section 2; 93_implementation_defined.md U10). -/
def Obligations.CinitMakesTheRunIndependentOfCrc : Prop :=
  ∀ (ws : List CmdWord) (s : State) (c : CrcWord), cinitBeforeUse ws = true →
    traceCommands ws { s with crc := c } = traceCommands ws s ∧
    (withoutCinit ws = false → runCommands ws { s with crc := c } = runCommands ws s)

/-- The pseudo-instructions' expansions and results (30_encoding.md section 4, the spec's own inferences in R67): each
assembles to its commands, leaves the listed result in RES and the last updated value in CRC, and keeps ERR. -/
def Obligations.PseudoInstructionsGiveTheirResults : Prop :=
  (∀ (bytes : List Byte) (s : State), ∃ ws t,
    assemble (.crcBytes (bytes.map BitVec.toNat)) = .ok ws ∧
    ws.map decode = .cinit :: bytes.map Instr.cupd ++ [.cfin] ∧ runCommands ws s = .next t ∧
    t.res = (crc16 bytes).setWidth 48 ∧ t.crc = crcReg bytes ∧ t.err = s.err) ∧
  (∀ (w : Word32) (s : State), ∃ ws t,
    assemble (.crcBody w.toNat) = .ok ws ∧
    ws.map decode = [.cinit, .cupd (byteLane w 0), .cupd (byteLane w 1), .cupd (byteLane w 2),
      .cupd (byteLane w 3), .cfin] ∧ runCommands ws s = .next t ∧
    t.res.extractLsb' 0 16 = (appendCrc w).extractLsb' 32 16 ∧ t.crc = crcReg (bodyBytes w) ∧ t.err = s.err) ∧
  (∀ (f : ResWord) (s : State), ∃ ws t,
    assemble (.checkFrame f.toNat) = .ok ws ∧
    ws.map decode = [.cinit, .cupd (byteLane f 0), .cupd (byteLane f 1), .cupd (byteLane f 2),
      .cupd (byteLane f 3), .cupd (byteLane f 4), .cupd (byteLane f 5), .cread] ∧
    runCommands ws s = .next t ∧ t.res = (crcReg (frameBytes f)).setWidth 48 ∧
    t.crc = crcReg (frameBytes f) ∧ t.err = s.err ∧
    ∀ w : Word32, f = appendCrc w → t.res.extractLsb' 0 16 = 0xF0B8)
end

