-- ==== Sys2Proof/Laws/Encoding.lean ====
section
/-!
SUPPORT. The command word as its two fields (30_encoding.md R60), bit by bit.
-/

namespace Sys2Proof

theorem getLsbD_makeWord (op : Opcode) (opnd : Word32) (i : Nat) :
    (makeWord op opnd).getLsbD i = if i < 32 then opnd.getLsbD i else op.getLsbD (i - 32) := by
  have h := BitVec.getLsbD_append (x := op) (y := opnd) (i := i)
  unfold makeWord; rw [h]

theorem opField_makeWord (op : Opcode) (opnd : Word32) : opField (makeWord op opnd) = op := by
  apply BitVec.eq_of_getLsbD_eq
  intro i hi
  simp [opField, getLsbD_makeWord, hi]

theorem opndField_makeWord (op : Opcode) (opnd : Word32) : opndField (makeWord op opnd) = opnd := by
  apply BitVec.eq_of_getLsbD_eq
  intro i hi
  simp [opndField, getLsbD_makeWord, hi]

theorem makeWord_fields (cw : CmdWord) : makeWord (opField cw) (opndField cw) = cw := by
  apply BitVec.eq_of_getLsbD_eq
  intro i hi
  rw [getLsbD_makeWord]
  simp only [opndField, opField, BitVec.getLsbD_extractLsb']
  by_cases h : i < 32
  · simp [h]
  · have h4 : i - 32 < 4 := by omega
    have h32 : 32 + (i - 32) = i := by omega
    simp [h, h4, h32]

theorem makeWord_and (a b : Opcode) (x y : Word32) :
    makeWord a x &&& makeWord b y = makeWord (a &&& b) (x &&& y) := by
  apply BitVec.eq_of_getLsbD_eq
  intro i _
  simp only [BitVec.getLsbD_and, getLsbD_makeWord]
  split <;> rfl

/-- Masking with 0xF00000000 keeps OP and clears OPND (30_encoding.md R63). -/
theorem makeWord_and_opcodeMask (op : Opcode) (opnd : Word32) :
    makeWord op opnd &&& 0xF00000000 = makeWord op 0 := by
  have hmask : (0xF00000000 : CmdWord) = makeWord 0xF 0 := by decide
  have hop : op &&& 0xF = op := by
    apply BitVec.eq_of_getLsbD_eq
    intro i hi
    have : (0xF : Opcode).getLsbD i = true := by
      interval_cases i <;> rfl
    rw [BitVec.getLsbD_and, this, Bool.and_true]
  rw [hmask, makeWord_and, hop]
  simp

theorem toNat_makeWord (op : Opcode) (opnd : Word32) :
    (makeWord op opnd).toNat = op.toNat * 2 ^ 32 + opnd.toNat := by
  have h := BitVec.toNat_append op opnd
  rw [makeWord, h, Nat.shiftLeft_eq, Nat.mul_comm, ← Nat.two_pow_add_eq_or_of_lt opnd.isLt]

/-- Decoding reads the two fields (30_encoding.md R60). -/
theorem decode_makeWord (op : Opcode) (opnd : Word32) :
    decode (makeWord op opnd) = decodeFields op opnd := by
  rw [decode, opField_makeWord, opndField_makeWord]

end Sys2Proof
end

