-- ==== Sys2Proof/Laws/State.lean ====
section
/-!
SUPPORT. What each update of State leaves in each field, one lemma per field and update.
-/

namespace Sys2Proof.Machine

variable (s : State)

@[simp] theorem State.writeCrc_crc (v : CrcWord) : (s.writeCrc v).crc = v := rfl
@[simp] theorem State.writeCrc_res (v : CrcWord) : (s.writeCrc v).res = s.res := rfl
@[simp] theorem State.writeCrc_err (v : CrcWord) : (s.writeCrc v).err = s.err := rfl
@[simp] theorem State.writeCrc_inputs (v : CrcWord) : (s.writeCrc v).inputs = s.inputs := rfl
@[simp] theorem State.writeCrc_config (v : CrcWord) : (s.writeCrc v).config = s.config := rfl

@[simp] theorem State.writeRes_crc (v : ResWord) : (s.writeRes v).crc = s.crc := rfl
@[simp] theorem State.writeRes_res (v : ResWord) : (s.writeRes v).res = v := rfl
@[simp] theorem State.writeRes_err (v : ResWord) : (s.writeRes v).err = s.err := rfl
@[simp] theorem State.writeRes_inputs (v : ResWord) : (s.writeRes v).inputs = s.inputs := rfl
@[simp] theorem State.writeRes_config (v : ResWord) : (s.writeRes v).config = s.config := rfl

@[simp] theorem State.setErr_crc : s.setErr.crc = s.crc := rfl
@[simp] theorem State.setErr_res : s.setErr.res = s.res := rfl
@[simp] theorem State.setErr_err : s.setErr.err = true := rfl
@[simp] theorem State.setErr_inputs : s.setErr.inputs = s.inputs := rfl
@[simp] theorem State.setErr_config : s.setErr.config = s.config := rfl

@[simp] theorem State.raiseIllegalCommand_eq (op : Opcode) : s.raiseIllegalCommand op = s.setErr := rfl

@[simp] theorem State.applyReset_crc : s.applyReset.crc = 0xFFFF := rfl
@[simp] theorem State.applyReset_res : s.applyReset.res = 0 := rfl
@[simp] theorem State.applyReset_err : s.applyReset.err = false := rfl
@[simp] theorem State.applyReset_inputs : s.applyReset.inputs = s.inputs := rfl
@[simp] theorem State.applyReset_config : s.applyReset.config = s.config := rfl

@[simp] theorem State.outputs_res : s.outputs.res = s.res := rfl
@[simp] theorem State.outputs_err : s.outputs.err = s.err := rfl

@[simp] theorem State.present_crc (e : PortEvent) : (s.present e).crc = s.crc := rfl
@[simp] theorem State.present_res (e : PortEvent) : (s.present e).res = s.res := rfl
@[simp] theorem State.present_err (e : PortEvent) : (s.present e).err = s.err := rfl
@[simp] theorem State.present_inputs (e : PortEvent) : (s.present e).inputs = e :: s.inputs := rfl
@[simp] theorem State.present_issuers (e : PortEvent) : (s.present e).config.issuers = .one := rfl
@[simp] theorem State.present_dpadMap (e : PortEvent) :
    (s.present e).config.dpadMap = s.config.dpadMap := rfl

@[simp] theorem State.queueCommands_crc (ws : List CmdWord) : (s.queueCommands ws).crc = s.crc := rfl
@[simp] theorem State.queueCommands_res (ws : List CmdWord) : (s.queueCommands ws).res = s.res := rfl
@[simp] theorem State.queueCommands_err (ws : List CmdWord) : (s.queueCommands ws).err = s.err := rfl
@[simp] theorem State.queueCommands_inputs (ws : List CmdWord) :
    (s.queueCommands ws).inputs = ws.map PortEvent.command ++ s.inputs := rfl
@[simp] theorem State.queueCommands_config (ws : List CmdWord) :
    (s.queueCommands ws).config = s.config := rfl

/-- `withFetchWord` presents the word's 36 bits as the next command. -/
theorem State.withFetchWord_eq (nbits w : Nat) :
    s.withFetchWord nbits w = s.present (.command (BitVec.ofNat 36 (tableWordBits nbits w))) := rfl

end Sys2Proof.Machine
end

