-- ==== Sys2Proof/Laws/Ops.lean ====
section
/-!
SUPPORT. What a command, an event and a step can do, said once: later proofs cite these and do not unfold `exec` or
`step`.
-/

namespace Sys2Proof.Machine

/-- A command that answers a next state wrote nothing, or one of CRC, RES and ERR. -/
theorem exec_cases {i : Instr} {s t : State} (h : exec i s = .next t) :
    t = s ∨ (∃ v, t = s.writeCrc v) ∨ (∃ v, t = s.writeRes v) ∨ t = s.setErr := by
  cases i <;> cases h
  case nop => exact .inl rfl
  case cinit => exact .inr (.inl ⟨_, rfl⟩)
  case cupd => exact .inr (.inl ⟨_, rfl⟩)
  case hat => exact .inr (.inr (.inl ⟨_, rfl⟩))
  case enc => exact .inr (.inr (.inl ⟨_, rfl⟩))
  case cread => exact .inr (.inr (.inl ⟨_, rfl⟩))
  case cfin => exact .inr (.inr (.inl ⟨_, rfl⟩))
  case append => exact .inr (.inr (.inl ⟨_, rfl⟩))
  case frame => exact .inr (.inr (.inl ⟨_, rfl⟩))
  all_goals exact .inr (.inr (.inr rfl))

/-- A command takes no event of the issuer. -/
theorem exec_inputs {i : Instr} {s t : State} (h : exec i s = .next t) : t.inputs = s.inputs := by
  obtain rfl | ⟨v, rfl⟩ | ⟨v, rfl⟩ | rfl := exec_cases h <;> rfl

/-- An event that answers a next state is a command performed, or a reset. -/
theorem performEvent_cases {e : PortEvent} {s t : State} (h : performEvent e s = .next t) :
    (∃ cw, e = .command cw ∧ exec (decode cw) s = .next t) ∨
    ((∀ cw, e ≠ .command cw) ∧ t = s.applyReset) := by
  cases e with
  | command cw => exact .inl ⟨cw, rfl, h⟩
  | reset presented => exact .inr ⟨fun _ hc => (by cases hc), by cases h; rfl⟩
  | powerUp => exact .inr ⟨fun _ hc => (by cases hc), by cases h; rfl⟩

/-- A step that answers a next state had one issuer, and found nothing presented or performed the issuer's next event. -/
theorem step_cases {s t : State} (h : step s = .next t) :
    s.config.issuers = .one ∧
    ((s.inputs = [] ∧ t = s) ∨
     ∃ e rest, s.inputs = e :: rest ∧ performEvent e { s with inputs := rest } = .next t) := by
  unfold step stepConfigured at h
  split at h
  · rename_i hone
    refine ⟨hone, ?_⟩
    unfold takeNextEvent at h
    split at h
    · rename_i hin
      exact .inl ⟨hin, by cases h; rfl⟩
    · rename_i e rest hin
      exact .inr ⟨e, rest, hin, h⟩
  · cases h

end Sys2Proof.Machine
end

