-- ==== Sys2Proof/Laws/PerInstr.lean ====
section
/-!
SUPPORT. Statements made of every command, one lemma per constructor.
-/

namespace Sys2Proof.Laws.EncodesInItsRow

/-- The command's encoded word selects the row of the opcode map that has the command's mnemonic (30_encoding.md R63). -/
def Statement (i : Instr) : Prop :=
  ∃ row ∈ opcodeRows, row.mnemonic = i.mnemonic ∧ row.selectedBy (encode i) = true

theorem of_row {i : Instr} {row : OpcodeRow} (hrow : row ∈ opcodeRows) (hname : row.mnemonic = i.mnemonic)
    (hmask : row.mask = 0xF00000000) (hpattern : row.pattern = makeWord i.opcode 0) : Statement i := by
  refine ⟨row, hrow, hname, ?_⟩
  rw [OpcodeRow.selectedBy, hmask, hpattern, encode, makeWord_and_opcodeMask, beq_self_eq_true]

theorem nop : Statement .nop :=
  of_row (row := ⟨"NOP", 0x000000000, 0xF00000000⟩) (by decide) rfl rfl
    (by decide : (0x000000000 : CmdWord) = makeWord 0x0 0)

theorem hat (d : Nibble) : Statement (.hat d) :=
  of_row (row := ⟨"HAT", 0x100000000, 0xF00000000⟩) (by decide) rfl rfl
    (by decide : (0x100000000 : CmdWord) = makeWord 0x1 0)

theorem enc (raw : Word32) : Statement (.enc raw) :=
  of_row (row := ⟨"ENC", 0x200000000, 0xF00000000⟩) (by decide) rfl rfl
    (by decide : (0x200000000 : CmdWord) = makeWord 0x2 0)

theorem cinit : Statement .cinit :=
  of_row (row := ⟨"CINIT", 0x300000000, 0xF00000000⟩) (by decide) rfl rfl
    (by decide : (0x300000000 : CmdWord) = makeWord 0x3 0)

theorem cupd (b : Byte) : Statement (.cupd b) :=
  of_row (row := ⟨"CUPD", 0x400000000, 0xF00000000⟩) (by decide) rfl rfl
    (by decide : (0x400000000 : CmdWord) = makeWord 0x4 0)

theorem cread : Statement .cread :=
  of_row (row := ⟨"CREAD", 0x500000000, 0xF00000000⟩) (by decide) rfl rfl
    (by decide : (0x500000000 : CmdWord) = makeWord 0x5 0)

theorem cfin : Statement .cfin :=
  of_row (row := ⟨"CFIN", 0x600000000, 0xF00000000⟩) (by decide) rfl rfl
    (by decide : (0x600000000 : CmdWord) = makeWord 0x6 0)

theorem append (w : Word32) : Statement (.append w) :=
  of_row (row := ⟨"APPEND", 0x700000000, 0xF00000000⟩) (by decide) rfl rfl
    (by decide : (0x700000000 : CmdWord) = makeWord 0x7 0)

theorem frame (raw : Word32) : Statement (.frame raw) :=
  of_row (row := ⟨"FRAME", 0x800000000, 0xF00000000⟩) (by decide) rfl rfl
    (by decide : (0x800000000 : CmdWord) = makeWord 0x8 0)

theorem reserved9 : Statement .reserved9 :=
  of_row (row := ⟨"reserved_0x9", 0x900000000, 0xF00000000⟩) (by decide) rfl rfl
    (by decide : (0x900000000 : CmdWord) = makeWord 0x9 0)

theorem reservedA : Statement .reservedA :=
  of_row (row := ⟨"reserved_0xA", 0xA00000000, 0xF00000000⟩) (by decide) rfl rfl
    (by decide : (0xA00000000 : CmdWord) = makeWord 0xA 0)

theorem reservedB : Statement .reservedB :=
  of_row (row := ⟨"reserved_0xB", 0xB00000000, 0xF00000000⟩) (by decide) rfl rfl
    (by decide : (0xB00000000 : CmdWord) = makeWord 0xB 0)

theorem reservedC : Statement .reservedC :=
  of_row (row := ⟨"reserved_0xC", 0xC00000000, 0xF00000000⟩) (by decide) rfl rfl
    (by decide : (0xC00000000 : CmdWord) = makeWord 0xC 0)

theorem reservedD : Statement .reservedD :=
  of_row (row := ⟨"reserved_0xD", 0xD00000000, 0xF00000000⟩) (by decide) rfl rfl
    (by decide : (0xD00000000 : CmdWord) = makeWord 0xD 0)

theorem reservedE : Statement .reservedE :=
  of_row (row := ⟨"reserved_0xE", 0xE00000000, 0xF00000000⟩) (by decide) rfl rfl
    (by decide : (0xE00000000 : CmdWord) = makeWord 0xE 0)

theorem reservedF : Statement .reservedF :=
  of_row (row := ⟨"reserved_0xF", 0xF00000000, 0xF00000000⟩) (by decide) rfl rfl
    (by decide : (0xF00000000 : CmdWord) = makeWord 0xF 0)

end Sys2Proof.Laws.EncodesInItsRow
end

