-- ==== Sys2Proof/Laws/Rom.lean ====
section
/-!
SUPPORT. The one-bit step s(c) of the bit-serial division (20_memory.md R43) is linear over XOR; DPAD_MAP is a bijection.
-/

namespace Sys2Proof.Machine

theorem crcShift_xor (a b : CrcWord) : crcShift (a ^^^ b) = crcShift a ^^^ crcShift b := by
  have both : ∀ p u v : CrcWord, u ^^^ v = (u ^^^ p) ^^^ (v ^^^ p) := by
    intro p u v
    have : (u ^^^ p) ^^^ (v ^^^ p) = (u ^^^ v) ^^^ (p ^^^ p) := by ac_rfl
    rw [this, BitVec.xor_self, BitVec.xor_zero]
  unfold crcShift
  rw [BitVec.getLsbD_xor]
  cases a.getLsbD 0 <;> cases b.getLsbD 0 <;> simp [BitVec.ushiftRight_xor_distrib]
  · ac_rfl
  · ac_rfl
  · exact both _ _ _

theorem crcShift_of_even {c : CrcWord} (h : c.getLsbD 0 = false) : crcShift c = c >>> 1 := by
  rw [crcShift, h]; rfl

/-- Two directions never share a bit of the DpadCode (00_scope.md R8). -/
theorem bitOf_injective (m : DpadMap) {x y : Direction} (h : m.bitOf x = m.bitOf y) : x = y := by
  have hd := m.distinct
  simp only [List.nodup_cons, List.mem_cons, List.not_mem_nil, or_false, not_or] at hd
  obtain ⟨⟨h1, h2, h3⟩, ⟨h4, h5⟩, h6, -⟩ := hd
  cases x <;> cases y <;> simp only [DpadMap.bitOf] at h <;> first | rfl | (exfalso; simp_all)

end Sys2Proof.Machine
end

