-- ==== Sys2Proof/Laws/Run.lean ====
section
/-!
SUPPORT. One command of a run, and one step of the host's run.
-/

namespace Sys2Proof.Machine

/-- A run whose first command answers a next state goes on from there. -/
theorem runCommands_cons {cw : CmdWord} {s t : State} (ws : List CmdWord) (h : performCommand cw s = .next t) :
    runCommands (cw :: ws) s = runCommands ws t := by
  rw [runCommands, h]

/-- The outputs after the first command head the observation. -/
theorem traceCommands_cons {cw : CmdWord} {s t : State} (ws : List CmdWord) (h : performCommand cw s = .next t) :
    traceCommands (cw :: ws) s = t.outputs :: traceCommands ws t := by
  rw [traceCommands, h]

/-- The host's run of a machine whose next step answers a next state goes on from there. -/
theorem coreRun_succ {M : Host.Core} {k : Nat} {s t : M.State} (h : M.step s = .next t) :
    M.run (k + 1) s = M.run k t := by
  simp only [Host.Core.run, h]

end Sys2Proof.Machine
end

