-- ==== Sys2Proof/Tests/Slice0.lean ====
section
/-!
SUPPORT. Tests. Expected values are the spec's: the encodings of 30_encoding.md, the vectors W, V and programs P of
95_test_vectors.md, and the examples of the instruction rules. The witnesses at the end meet the hypotheses of the
statements of Certificates/Slice0/Obligations.lean.
-/

namespace Sys2Proof.Tests

open Sys2Proof Sys2Proof.Machine

/-! ## Well-formedness: an ill-formed term for each check, refused -/

theorem test_reserved_has_no_mnemonic : Instr.assigned .reserved9 = false := by decide
theorem test_assigned_frame : Instr.assigned (.frame 0) = true := by decide
theorem test_hat_16_too_large : (SourceLine.command .hat (some 16)).problem = some .operandTooLarge := by decide
theorem test_hat_15_fits : (SourceLine.command .hat (some 15)).wellFormed = true := by decide
theorem test_cupd_256_too_large : (SourceLine.command .cupd (some 256)).wellFormed = false := by decide
theorem test_enc_33_bits_too_large : (SourceLine.command .enc (some 0x100000000)).wellFormed = false := by decide
theorem test_nop_with_operand : (SourceLine.command .nop (some 0)).problem = some .unexpectedOperand := by decide
theorem test_hat_without_operand : (SourceLine.command .hat none).problem = some .missingOperand := by decide
theorem test_word36_37_bits : (SourceLine.word36 0x1000000000).wellFormed = false := by decide
theorem test_crcbytes_256 : (SourceLine.crcBytes [0, 256]).wellFormed = false := by decide
theorem test_crcbody_33_bits : (SourceLine.crcBody 0x100000000).wellFormed = false := by decide
theorem test_checkframe_49_bits : (SourceLine.checkFrame 0x1000000000000).wellFormed = false := by decide

/-! ## Decoding: words written out from R60 and R63 -/

theorem test_decode_nop : decode 0b000000000000000000000000000000000000 = .nop := by decide
theorem test_decode_hat : decode 0b000100000000000000000000000000001100 = .hat 0xC := by decide
theorem test_decode_enc : decode 0b001000010010001101000101011001111000 = .enc 0x12345678 := by decide
theorem test_decode_cinit : decode 0b001100000000000000000000000000000000 = .cinit := by decide
theorem test_decode_cupd : decode 0b010000000000000000000000000010000000 = .cupd 0x80 := by decide
theorem test_decode_cread : decode 0b010100000000000000000000000000000000 = .cread := by decide
theorem test_decode_cfin : decode 0b011000000000000000000000000000000000 = .cfin := by decide
theorem test_decode_append : decode 0b011110000000000000000000000000000000 = .append 0x80000000 := by decide
theorem test_decode_frame : decode 0b100000000000000000000000000000010000 = .frame 0x10 := by decide
theorem test_decode_reserved9 : decode 0b100100000000000000000000000000000000 = .reserved9 := by decide
theorem test_decode_reservedA : decode 0b101000000000000000000000000000000000 = .reservedA := by decide
theorem test_decode_reservedB : decode 0b101100000000000000000000000000000000 = .reservedB := by decide
theorem test_decode_reservedC : decode 0b110000000000000000000000000000000000 = .reservedC := by decide
theorem test_decode_reservedD : decode 0b110100000000000000000000000000000000 = .reservedD := by decide
theorem test_decode_reservedE : decode 0b111000000000000000000000000000000000 = .reservedE := by decide
theorem test_decode_reservedF : decode 0b111100000000000000000000000000000000 = .reservedF := by decide
theorem test_decode_hat_ignored_bits : decode 0x1FFFFFFF3 = .hat 0x3 := by decide
theorem test_decode_cupd_ignored_bits : decode 0x4ABCDEF00 = .cupd 0x00 := by decide
theorem test_encode_cupd : encode (.cupd 0x80) = 0x400000080 := by decide
theorem test_encode_frame : encode (.frame 0) = 0x800000000 := by decide
theorem test_table_word_of_40_bits : decodeTableWord 40 0x4000000D6 = some (.cupd 0xD6) := by decide
theorem test_table_word_too_wide : decodeTableWord 40 0x1000000000 = none := by decide

/-! ## Assembler text (R66, R67, R68) -/

theorem test_text_hat_hex : assembled? (assembleText "HAT 0x3 ; UP and RIGHT") = some [0x100000003] := by decide
theorem test_text_cupd_decimal : assembled? (assembleText "  CUPD 128") = some [0x400000080] := by decide
theorem test_text_word36 : assembled? (assembleText ".word36 0x9DEADBEEF") = some [0x9DEADBEEF] := by decide
theorem test_text_crcbytes : assembled? (assembleText "CRCBYTES 0x31, 0x32") =
    some [0x300000000, 0x400000031, 0x400000032, 0x600000000] := by decide
theorem test_text_crcbytes_none : assembled? (assembleText "CRCBYTES") = some [0x300000000, 0x600000000] := by decide
theorem test_text_checkframe : assembled? (assembleText "CHECKFRAME 0x78D680000000") =
    some [0x300000000, 0x400000000, 0x400000000, 0x400000000, 0x400000080, 0x4000000D6, 0x400000078, 0x500000000] := by
  decide
theorem test_text_comment_only : assembled? (assembleText "; idle") = some [] := by decide
theorem test_text_too_large : sourceError? (assembleText "CUPD 256") = some .operandTooLarge := by decide
theorem test_text_operand_for_nop : sourceError? (assembleText "NOP 0") = some .unexpectedOperand := by decide
theorem test_text_bad_literal : sourceError? (assembleText "CUPD 0xG1") = some .badLiteral := by decide
theorem test_text_unknown : sourceError? (assembleText "RSV") = some .unknownMnemonic := by decide

/-! ## The tables -/

theorem test_hatt_default : (List.range 16).map (fun d => hatt DpadMap.default (BitVec.ofNat 4 d)) = hattDefaultListing := by
  decide
theorem test_crct_01 : crct 0x01 = 0x1189 := by decide +kernel
theorem test_crct_80 : crct 0x80 = 0x8408 := by decide +kernel
theorem test_crct_FF : crct 0xFF = 0x0F78 := by decide +kernel
/-- The published X-25 check value (95_test_vectors.md V-CRC-9). -/
theorem test_crc_check_value : crc16 [0x31, 0x32, 0x33, 0x34, 0x35, 0x36, 0x37, 0x38, 0x39] = 0x906E := by
  decide +kernel
theorem test_crc_update : crcUpdate 0x1234 0x56 = 0x4006 := by decide +kernel

/-! ## One step of each command -/

/-- A state with the default parameters and nothing queued. -/
def st (crc : CrcWord) (res : ResWord) (err : Bool) : State :=
  { crc := crc, res := res, err := err, inputs := [], config := Config.default }

/-- The state after one step that presents the word, where there is one. -/
def after (cw : Nat) (s : State) : Option State :=
  nextState? (step (s.withFetchWord 40 cw))

theorem test_nop_all_ones : after 0x0FFFFFFFF (st 0x1234 0x5 true) = some (st 0x1234 0x5 true) := by decide
theorem test_hat_up_right : after 0x100000003 (st 0xFFFF 0x8 false) = some (st 0xFFFF 0x1 false) := by decide
theorem test_hat_opposing : after 0x10000000A (st 0xFFFF 0x1 true) = some (st 0xFFFF 0x8 true) := by decide
theorem test_enc_vector : after 0x2DEADBEEF (st 0xFFFF 0 false) = some (st 0xFFFF 0x00008DEADBEE false) := by decide
theorem test_enc_top_button : after 0x280000003 (st 0xFFFF 0x7CC08FFFFFFF false) = some (st 0xFFFF 0x000018000000 false) := by
  decide
theorem test_cinit : after 0x300000000 (st 0x1234 0x5 false) = some (st 0xFFFF 0x5 false) := by decide
theorem test_cupd_80 : after 0x400000080 (st 0x3933 0x80000000 false) = some (st 0x8729 0x80000000 false) := by
  decide +kernel
theorem test_cupd_ignored : after 0x4ABCDEF00 State.reset = some (st 0x0F87 0 false) := by decide +kernel
theorem test_cread : after 0x500000000 (st 0x0F87 0x78D680000000 false) = some (st 0x0F87 0x000000000F87 false) := by decide
theorem test_cfin : after 0x600000000 (st 0x8729 0x80000000 false) = some (st 0x8729 0x0000000078D6 false) := by decide
theorem test_cfin_zero : after 0x600000000 (st 0x0000 0 false) = some (st 0x0000 0x00000000FFFF false) := by decide
theorem test_append_lane3 : after 0x701000000 (st 0x2F8D 0 false) = some (st 0x2F8D 0xED5701000000 false) := by
  decide +kernel
theorem test_append_lane0 : after 0x700000080 (st 0x2F8D 0 false) = some (st 0x2F8D 0xD1B000000080 false) := by
  decide +kernel
theorem test_frame_golden : after 0x800000000 State.reset = some (st 0xFFFF 0x78D680000000 false) := by decide +kernel
theorem test_frame_vector : after 0x812345678 (st 0x8729 0 true) = some (st 0x8729 0x760461234567 true) := by
  decide +kernel
theorem test_reserved9 : after 0x9DEADBEEF (st 0xFFFF 0x1 false) = some (st 0xFFFF 0x1 true) := by decide
theorem test_reservedA : after 0xA00000000 State.reset = some (st 0xFFFF 0 true) := by decide
theorem test_reservedB : after 0xB00000000 State.reset = some (st 0xFFFF 0 true) := by decide
theorem test_reservedC : after 0xC00000000 State.reset = some (st 0xFFFF 0 true) := by decide
theorem test_reservedD : after 0xD00000000 State.reset = some (st 0xFFFF 0 true) := by decide
theorem test_reservedE : after 0xE00000000 State.reset = some (st 0xFFFF 0 true) := by decide
theorem test_reservedF : after 0xF12345678 (st 0x8729 0x78D680000000 false) = some (st 0x8729 0x78D680000000 true) := by
  decide
/-- 95_test_vectors.md V-NOP and V-RSV, "Reset with a command". -/
theorem test_reset_discards_cinit :
    nextState? (step ((st 0x1234 0x5 true).present (.reset (some 0x300000000)))) = some (st 0xFFFF 0 false) := by decide
theorem test_power_up : nextState? (step ((st 0x1234 0x5 true).present .powerUp)) = some (st 0xFFFF 0 false) := by decide

/-! ## Witnesses: states and operands that meet the hypotheses of the statements -/

/-- A state whose next event is `e`. -/
def stWith (e : PortEvent) (err : Bool) : State :=
  (st 0x1234 0x5 err).present e

theorem witness_same_opcode : opField 0x100000003 = opField 0x1FFFFFFF3 := by decide
theorem witness_ignored_bits :
    (0x100000003 : CmdWord) &&& (decode 0x100000003).usedBits = 0x1FFFFFFF3 &&& (decode 0x100000003).usedBits := by decide
theorem witness_reserved_boundary : 9 ≤ (0x9 : Opcode).toNat ∧ 9 ≤ (0xF : Opcode).toNat ∧ (0x8 : Opcode).toNat < 9 := by
  decide
theorem witness_assembler :
    Mnemonic.hat.operandWidth = some 4 ∧ 15 < 2 ^ 4 ∧ 2 ^ 4 ≤ 16 ∧ Mnemonic.frame.operandWidth = some 32 ∧
      0xFFFFFFFF < 2 ^ 32 ∧ 2 ^ 32 ≤ 0x100000000 ∧ Mnemonic.nop.operandWidth = none := by decide

/-- S(d) as the statement has it. -/
def setOf (d : Nibble) (x : Direction) : Bool :=
  d.getLsbD (DpadMap.default.bitOf x).val

/-- One DpadCode for each clause of the hat table, in the statement's order. -/
theorem witness_hat_clauses :
    (setOf 0xF .up = true ∧ setOf 0xF .down = true) ∧ (setOf 0xA .left = true ∧ setOf 0xA .right = true) ∧
    (∀ d ∈ [(0x0, [false, false, false, false]), (0x1, [true, false, false, false]), (0x2, [false, true, false, false]),
      (0x4, [false, false, true, false]), (0x8, [false, false, false, true]), (0x3, [true, true, false, false]),
      (0x6, [false, true, true, false]), (0xC, [false, false, true, true]), (0x9, [true, false, false, true])],
      [setOf d.1 .up, setOf d.1 .right, setOf d.1 .down, setOf d.1 .left] = d.2) := by
  simp only [List.forall_mem_cons, List.not_mem_nil, false_imp_iff, implies_true]
  decide
theorem witness_hat_value : (0x8 : Nibble).toNat ≤ 8 ∧ (0x0 : Nibble).toNat ≤ 8 := by decide
theorem witness_button_bits : 0 < 28 ∧ 27 < 28 ∧ 0 < 32 ∧ 31 < 32 := by decide
theorem witness_encoder_opposing :
    (0x00000005 : Word32).getLsbD (DpadMap.default.bitOf .up).val = true ∧
    (0x00000005 : Word32).getLsbD (DpadMap.default.bitOf .down).val = true ∧
    (0x0000000A : Word32).getLsbD (DpadMap.default.bitOf .left).val = true ∧
    (0x0000000A : Word32).getLsbD (DpadMap.default.bitOf .right).val = true := by decide
theorem witness_encoder_same_body :
    (0x00000010 : Word32).extractLsb' 4 28 = (0x0000001F : Word32).extractLsb' 4 28 ∧
    hatt DpadMap.default ((0x00000010 : Word32).extractLsb' 0 4) = 8 ∧
    hatt DpadMap.default ((0x0000001F : Word32).extractLsb' 0 4) = 8 := by decide
theorem witness_hat_opposing_in_reset :
    (0x5 : Nibble).getLsbD (State.reset.config.dpadMap.bitOf .up).val = true ∧
    (0x5 : Nibble).getLsbD (State.reset.config.dpadMap.bitOf .down).val = true ∧
    (0xA : Nibble).getLsbD (State.reset.config.dpadMap.bitOf .left).val = true ∧
    (0xA : Nibble).getLsbD (State.reset.config.dpadMap.bitOf .right).val = true ∧
    State.reset.config.dpadMap = DpadMap.default := by decide
theorem witness_hat_next : nextState? (exec (.hat 0x3) State.reset) = some (st 0xFFFF 0x1 false) := by decide
theorem witness_enc_next : nextState? (exec (.enc 0x3) State.reset) = some (st 0xFFFF 0x10000000 false) := by decide
theorem witness_err_clear : State.reset.err = false := by decide
theorem witness_assigned : (Instr.append 0).assigned = true := by decide
theorem witness_not_reading_crc :
    (Instr.enc 0x3).readsCrc = false ∧ Instr.enc 0x3 ≠ .cinit ∧ Instr.reserved9.readsCrc = false ∧
      Instr.reserved9 ≠ .cinit := by decide
theorem witness_err_kept :
    nextState? (exec .nop (st 0x1234 0x5 true)) = some (st 0x1234 0x5 true) ∧ (st 0x1234 0x5 true).err = true := by decide
theorem witness_frame_clauses :
    (Instr.cupd 0).producesResult = false ∧ Instr.cread ≠ .cinit ∧ Instr.cread.foldedByte? = none ∧
      Instr.cread.assigned = true := by decide
theorem witness_idempotent :
    Instr.cinit.foldedByte? = none ∧ nextState? (exec .cinit (st 0x1234 0 false)) = some (st 0xFFFF 0 false) := by decide
theorem witness_step_command :
    (stWith (.command 0x300000000) false).config.issuers = .one ∧
    (stWith (.command 0x300000000) false).inputs = [.command 0x300000000] ∧ decode 0x300000000 = .cinit ∧
    decodeTableWord 40 0x300000000 = some .cinit := by decide
theorem witness_idle : State.reset.config.issuers = .one ∧ State.reset.inputs = [] := by decide
theorem witness_reset_event :
    (stWith (.reset (some 0x9DEADBEEF)) true).config.issuers = .one ∧
    (stWith (.reset (some 0x9DEADBEEF)) true).inputs = [.reset (some 0x9DEADBEEF)] ∧
    (stWith .powerUp true).inputs = [.powerUp] := by decide
theorem witness_several_issuers :
    ({ State.reset with config := { Config.default with issuers := .several } } : State).config.issuers = .several := by
  decide
theorem witness_err_cleared_by_reset :
    nextState? (step (stWith (.reset none) true)) = some (st 0xFFFF 0 false) ∧ (stWith (.reset none) true).err = true := by
  decide
theorem witness_reserved_while_err : 9 ≤ (opField 0xF00000000).toNat ∧ (st 0x1234 0x5 true).err = true := by decide
theorem witness_step_next : nextState? (step State.reset) = some State.reset := by decide
/-- A legal RES (a frame) that a step changes to another legal one. -/
theorem witness_res_legal :
    ResLegal (st 0xFFFF 0x78D680000000 false).res ∧
    nextState? (step ((st 0xFFFF 0x78D680000000 false).present (.command 0x100000003))) = some (st 0xFFFF 0x1 false) :=
  ⟨.inr (by decide +kernel), by decide⟩
theorem witness_run_next :
    nextState? (runCommands [0x300000000] State.reset) = some State.reset ∧
    nextState? (performCommand 0x100000003 State.reset) = some (st 0xFFFF 0x1 false) := by decide
theorem witness_without_cinit :
    withoutCinit [0x400000000, 0x7FFFFFFFF, 0x600000000] = true ∧ decode 0x3FFFFFFFF = .cinit := by decide
theorem witness_no_result_after :
    ∀ w ∈ [(0x300000000 : CmdWord), 0x400000080, 0x900000000], (decode w).producesResult = false := by
  simp only [List.forall_mem_cons, List.not_mem_nil, false_imp_iff, implies_true]
  decide
theorem witness_cinit_before_use :
    cinitBeforeUse [0x800000000, 0x300000000, 0x400000031, 0x600000000] = true ∧
    withoutCinit [0x800000000, 0x300000000, 0x400000031, 0x600000000] = false := by decide
theorem witness_checked_frame : (0x78D680000000 : ResWord) = appendCrc 0x80000000 := by decide +kernel

end Sys2Proof.Tests
end

section
/-!
SUPPORT. The whole effect of a command on the state, said once: CRC, RES and ERR after it as functions of the state before
it (10_state.md R22, R24, R26). `exec_eq` ties them to the model; the claims about commands cite it and do not unfold `exec`.
-/

namespace Sys2Proof.Machine

/-- CRC after a command that finds `c` in it (10_state.md R22). -/
def nextCrc (i : Instr) (c : CrcWord) : CrcWord :=
  match i with
  | .cinit => crcInit
  | .cupd b => crcUpdate c b
  | _ => c

/-- RES after a command performed in the state `s` (10_state.md R24). -/
def nextRes (i : Instr) (s : State) : ResWord :=
  match i with
  | .hat d => zext48 (hatt s.config.dpadMap d)
  | .enc raw => zext48 (encodeBody s.config.dpadMap raw)
  | .cread => zext48 s.crc
  | .cfin => zext48 (~~~ s.crc)
  | .append w => appendCrc w
  | .frame raw => appendCrc (encodeBody s.config.dpadMap raw)
  | _ => s.res

/-- The state after a command: a reserved one sets ERR, and the issuer's events and the parameters stay. -/
def State.afterCommand (s : State) (i : Instr) : State :=
  { s with crc := nextCrc i s.crc, res := nextRes i s, err := !i.assigned || s.err }

section Fields

variable (i : Instr) (s : State)

@[simp] theorem State.afterCommand_crc : (s.afterCommand i).crc = nextCrc i s.crc := rfl
@[simp] theorem State.afterCommand_res : (s.afterCommand i).res = nextRes i s := rfl
@[simp] theorem State.afterCommand_err : (s.afterCommand i).err = (!i.assigned || s.err) := rfl
@[simp] theorem State.afterCommand_inputs : (s.afterCommand i).inputs = s.inputs := rfl
@[simp] theorem State.afterCommand_config : (s.afterCommand i).config = s.config := rfl

/-- Every command, in every state, answers the next state with the listed effect. -/
theorem exec_eq : exec i s = .next (s.afterCommand i) := by
  cases i <;> rfl

end Fields

theorem exec_eq_next_iff {i : Instr} {s t : State} : exec i s = .next t ↔ t = s.afterCommand i := by
  rw [exec_eq, Host.Outcome.next.injEq, eq_comm]

/-- ERR is no input of a command: writing it before the command changes ERR alone after it (10_state.md R26). -/
theorem State.afterCommand_withErr (i : Instr) (s : State) (b : Bool) :
    State.afterCommand { s with err := b } i = { s.afterCommand i with err := !i.assigned || b } := by
  cases i <;> rfl

/-- A command that neither reads CRC nor is CINIT commutes with writing CRC (10_state.md R22). -/
theorem State.afterCommand_writeCrc {i : Instr} (hread : i.readsCrc = false) (hinit : i ≠ .cinit) (s : State)
    (c : CrcWord) : (s.writeCrc c).afterCommand i = (s.afterCommand i).writeCrc c := by
  cases i with
  | cinit => exact absurd rfl hinit
  | cupd | cread | cfin => cases hread
  | _ => rfl

/-- OP = 0x9..0xF selects a reserved command (30_encoding.md R64). -/
theorem assigned_decodeFields (op : Opcode) (opnd : Word32) :
    (decodeFields op opnd).assigned = decide (op.toNat < 9) := by
  unfold decodeFields
  split <;> simp_all [Instr.assigned]
  -- The decoder's last case: OP is none of 0x0..0xE.
  omega

/-- With one issuer, a step performs the event that the issuer presents next (20_memory.md R52). -/
theorem step_eq_performEvent {s : State} {e : PortEvent} {rest : List PortEvent} (hone : s.config.issuers = .one)
    (hin : s.inputs = e :: rest) : step s = performEvent e { s with inputs := rest } := by
  simp only [step, stepConfigured, takeNextEvent, hone, hin]

end Sys2Proof.Machine
end

section
/-!
SUPPORT. The two parts of a 48-bit result, RES[47:32] and RES[31:0] (10_state.md R24).
-/

namespace Sys2Proof.Machine

/-- A zero-extended result of at most 32 bits has no trailer. -/
theorem zext48_trailer {n : Nat} (hn : n ≤ 32) (v : BitVec n) : (zext48 v).extractLsb' 32 16 = 0 := by
  apply BitVec.eq_of_getLsbD_eq
  intro k _
  simp [zext48, BitVec.getLsbD_of_ge v (32 + k) (by omega)]

theorem zext48_body {n : Nat} (v : BitVec n) : (zext48 v).extractLsb' 0 32 = v.setWidth 32 := by
  apply BitVec.eq_of_getLsbD_eq
  intro k hk
  have hk48 : k < 48 := by omega
  simp [zext48, hk, hk48]

theorem appendCrc_trailer (w : Word32) : (appendCrc w).extractLsb' 32 16 = crc16 (bodyBytes w) :=
  BitVec.extractLsb'_append_eq_left

theorem appendCrc_body (w : Word32) : (appendCrc w).extractLsb' 0 32 = w :=
  BitVec.extractLsb'_append_eq_right

end Sys2Proof.Machine
end

section
/-!
PROOFS. The statements of 10_state.md: RES, CRC, ERR and the reset values.
-/

namespace Sys2Proof.Machine

/-- Settles O41: each command's RES is a zero-extended value or a frame word, and both have the listed parts. -/
theorem resultsAreLaidOutAsListed : Obligations.ResultsAreLaidOutAsListed := by
  intro i s
  refine ⟨s.afterCommand i, exec_eq i s, ?_⟩
  cases i with
  | hat d => exact ⟨zext48_trailer (by decide) _, zext48_body _⟩
  | enc raw => exact ⟨zext48_trailer (by decide) _, (zext48_body _).trans (BitVec.setWidth_eq _)⟩
  | cread => exact ⟨zext48_trailer (by decide) _, zext48_body _⟩
  | cfin => exact ⟨zext48_trailer (by decide) _, zext48_body _⟩
  | append w => exact ⟨appendCrc_trailer w, appendCrc_body w⟩
  | frame raw => exact ⟨appendCrc_trailer _, appendCrc_body _⟩
  | _ => rfl

/-- Settles O40: the listed accesses are `nextCrc` and `nextRes`; a command without access commutes with a write of CRC. -/
theorem crcIsAccessedAsListed : Obligations.CrcIsAccessedAsListed := by
  refine ⟨fun i s => ⟨s.afterCommand i, exec_eq i s, ?_⟩,
    fun s => ⟨⟨_, exec_eq .cread s, rfl⟩, ⟨_, exec_eq .cfin s, rfl⟩⟩, ?_⟩
  · cases i <;> rfl
  · intro i s t c hread hinit h
    rw [exec_eq_next_iff.mp h]
    exact exec_eq_next_iff.mpr (State.afterCommand_writeCrc hread hinit s c).symm

/-- Settles O42: ERR after a command is its value before, or 1 for a reserved opcode, and nothing else reads it. -/
theorem errIsStickyAndUnread : Obligations.ErrIsStickyAndUnread := by
  refine ⟨?reserved, ?sticky, ?unread, ?reset, State.outputs_err⟩
  case reserved =>
    intro op opnd s hop
    refine ⟨_, exec_eq _ s, ?_⟩
    simp [decode_makeWord, assigned_decodeFields, hop]
  case sticky =>
    intro i s t h herr
    simp [exec_eq_next_iff.mp h, herr]
  case unread =>
    intro i s t b h
    rw [exec_eq_next_iff.mp h]
    exact ⟨_, exec_eq_next_iff.mpr (State.afterCommand_withErr i s b).symm⟩
  case reset =>
    intro s presented rest hone hin
    exact ⟨_, step_eq_performEvent hone hin, State.applyReset_err _⟩

/-- Settles O45: `State.reset` holds the listed values, and `applyReset` writes them and keeps the parameters. -/
theorem resetStateIsAsListed : Obligations.ResetStateIsAsListed :=
  ⟨rfl, rfl, rfl, fun s => ⟨s.applyReset_crc, s.applyReset_res, s.applyReset_err,
    fun d => by rw [s.applyReset_config]⟩⟩

end Sys2Proof.Machine
end

section
/-!
SUPPORT. HATT by the directions that are pressed (20_memory.md R41).
-/

namespace Sys2Proof.Machine

variable {m : DpadMap} {d : Nibble}

/-- HATT reads an index only through the memberships of the four directions in S(d). -/
theorem hatt_of_pressed {up right down left : Bool} (hup : pressed m d .up = up) (hright : pressed m d .right = right)
    (hdown : pressed m d .down = down) (hleft : pressed m d .left = left) :
    hatt m d = hatOfSet up right down left := by
  rw [hatt, hup, hright, hdown, hleft]

theorem hatOfSet_up_down (right left : Bool) : hatOfSet true right true left = 8 := by
  cases right <;> cases left <;> rfl

theorem hatOfSet_right_left (up down : Bool) : hatOfSet up true down true = 8 := by
  cases up <;> cases down <;> rfl

theorem toNat_hatOfSet_le : ∀ up right down left : Bool, (hatOfSet up right down left).toNat ≤ 8 := by
  decide

theorem hatt_of_up_down (hup : pressed m d .up = true) (hdown : pressed m d .down = true) : hatt m d = 8 :=
  (hatt_of_pressed hup rfl hdown rfl).trans (hatOfSet_up_down _ _)

theorem hatt_of_right_left (hright : pressed m d .right = true) (hleft : pressed m d .left = true) : hatt m d = 8 :=
  (hatt_of_pressed rfl hright rfl hleft).trans (hatOfSet_right_left _ _)

theorem toNat_hatt_le (m : DpadMap) (d : Nibble) : (hatt m d).toNat ≤ 8 :=
  toNat_hatOfSet_le _ _ _ _

end Sys2Proof.Machine
end

section
/-!
SUPPORT. What a step leaves of the parameters, and a run of several commands (20_memory.md R45, R52).
-/

namespace Sys2Proof.Machine

/-- An event, reset or command, keeps the parameters. -/
theorem performEvent_config {e : PortEvent} {s t : State} (h : performEvent e s = .next t) : t.config = s.config := by
  obtain ⟨cw, -, hexec⟩ | ⟨-, rfl⟩ := performEvent_cases h
  · rw [exec_eq_next_iff.mp hexec, State.afterCommand_config]
  · exact s.applyReset_config

theorem step_config {s t : State} (h : step s = .next t) : t.config = s.config := by
  obtain ⟨-, ⟨-, rfl⟩ | ⟨e, rest, -, hevent⟩⟩ := step_cases h
  · rfl
  · exact (performEvent_config hevent :)

/-- Every command word, in every state, has the effect of the command it decodes to. -/
theorem performCommand_eq (cw : CmdWord) (s : State) : performCommand cw s = .next (s.afterCommand (decode cw)) :=
  exec_eq (decode cw) s

/-- No command reads or writes the issuer's queue, so queueing commutes with it. -/
theorem State.afterCommand_queueCommands (s : State) (ws : List CmdWord) (i : Instr) :
    (s.queueCommands ws).afterCommand i = (s.afterCommand i).queueCommands ws := by
  cases i <;> rfl

/-- One step takes the first queued word, performs it, and leaves the other words queued. -/
theorem step_queueCommands_cons {s : State} (hone : s.config.issuers = .one) (cw : CmdWord) (ws : List CmdWord) :
    step (s.queueCommands (cw :: ws)) = .next ((s.afterCommand (decode cw)).queueCommands ws) :=
  calc step (s.queueCommands (cw :: ws))
    _ = performCommand cw (s.queueCommands ws) := step_eq_performEvent (s := s.queueCommands (cw :: ws)) hone rfl
    _ = .next ((s.queueCommands ws).afterCommand (decode cw)) := performCommand_eq cw _
    _ = .next ((s.afterCommand (decode cw)).queueCommands ws) := by rw [State.afterCommand_queueCommands]

/-- Running the machine over queued words is performing the words one after the other. -/
theorem coreRun_queueCommands (ws : List CmdWord) {s : State} (hone : s.config.issuers = .one) :
    Host.Core.run Sys2Proof.core ws.length (s.queueCommands ws) = runCommands ws s := by
  induction ws generalizing s with
  | nil => rfl
  | cons cw ws ih =>
    rw [runCommands_cons ws (performCommand_eq cw s), ← ih (s := s.afterCommand (decode cw)) hone]
    exact coreRun_succ (step_queueCommands_cons hone cw ws)

/-- Commands after a run act on the state the run left. -/
theorem runCommands_append {ws : List CmdWord} {s t : State} (h : runCommands ws s = .next t) (more : List CmdWord) :
    runCommands (ws ++ more) s = runCommands more t := by
  induction ws generalizing s with
  | nil => cases h; rfl
  | cons cw ws ih =>
    have hcw := performCommand_eq cw s
    rw [runCommands_cons ws hcw] at h
    rw [List.cons_append, runCommands_cons _ hcw, ih h]

/-- The outputs of commands after a run follow the run's, and start from the state it left. -/
theorem traceCommands_append {ws : List CmdWord} {s t : State} (h : runCommands ws s = .next t) (more : List CmdWord) :
    traceCommands (ws ++ more) s = traceCommands ws s ++ traceCommands more t := by
  induction ws generalizing s with
  | nil => cases h; rfl
  | cons cw ws ih =>
    have hcw := performCommand_eq cw s
    rw [runCommands_cons ws hcw] at h
    rw [List.cons_append, traceCommands_cons _ hcw, traceCommands_cons _ hcw, ih h, List.cons_append]

end Sys2Proof.Machine
end

section
/-!
PROOFS. The statements of 20_memory.md: the hat table, the constancy of the ROMs, and the order of commands.
-/

namespace Sys2Proof.Machine

/-- Settles O54: the run lemmas for queued words and for commands after a run, the latter at a single command. -/
theorem commandsTakeEffectInOrder : Obligations.CommandsTakeEffectInOrder := by
  refine ⟨fun ws s hone => coreRun_queueCommands ws hone, fun ws cw s t u hrun hcw => ⟨?run, ?trace⟩⟩
  case run => rw [runCommands_append hrun, runCommands_cons [] hcw, runCommands]
  case trace => rw [traceCommands_append hrun, traceCommands_cons [] hcw, traceCommands, State.outputs]

/-- Settles O10: an opposing pair decides the value alone; in the other clauses the four memberships are given, and
name the table's entry. -/
theorem hatTableFollowsTheDirections : Obligations.HatTableFollowsTheDirections := by
  intro m d set
  refine ⟨fun ⟨hup, hdown⟩ => hatt_of_up_down hup hdown, fun ⟨hleft, hright⟩ => hatt_of_right_left hright hleft,
    ?_, ?_, ?_, ?_, ?_, ?_, ?_, ?_, ?_, toNat_hatt_le m d⟩
  all_goals
    rintro ⟨hup, hright, hdown, hleft⟩
    exact hatt_of_pressed hup hright hdown hleft

/-- Settles O51: HATT depends on the state through the parameters alone, and every step keeps them. -/
theorem stepKeepsTheRoms : Obligations.StepKeepsTheRoms := by
  intro s t h
  have hconfig := step_config h
  exact ⟨hconfig, fun d => by rw [hconfig]⟩

end Sys2Proof.Machine
end

section
/-!
SUPPORT. What the decoder reads of each field: OP alone selects the command, and of OPND only the bits in `usedBits` count
(30_encoding.md R60, R61, R62).
-/

namespace Sys2Proof

theorem toNat_opField (cw : CmdWord) : (opField cw).toNat = cw.toNat / 2 ^ 32 := by
  rw [opField, BitVec.extractLsb'_toNat, Nat.shiftRight_eq_div_pow]
  have hlt := cw.isLt
  omega

theorem toNat_opndField (cw : CmdWord) : (opndField cw).toNat = cw.toNat % 2 ^ 32 := by
  rw [opndField, BitVec.extractLsb'_toNat, Nat.shiftRight_zero]

theorem opField_and (cw mask : CmdWord) : opField (cw &&& mask) = opField cw &&& opField mask :=
  BitVec.extractLsb'_and

theorem opndField_and (cw mask : CmdWord) : opndField (cw &&& mask) = opndField cw &&& opndField mask :=
  BitVec.extractLsb'_and

theorem hatOperand_eq_ofNat (opnd : Word32) : hatOperand opnd = BitVec.ofNat 4 (opnd.toNat % 16) := by
  apply BitVec.eq_of_toNat_eq
  simp [hatOperand]

theorem byteOperand_eq_ofNat (opnd : Word32) : byteOperand opnd = BitVec.ofNat 8 (opnd.toNat % 256) := by
  apply BitVec.eq_of_toNat_eq
  simp [byteOperand]

/-- Every bit of HAT's operand is used. -/
theorem hatOperand_and_used (opnd : Word32) : hatOperand (opnd &&& opndField 0xF0000000F) = hatOperand opnd := by
  have hmask : hatOperand (opndField 0xF0000000F) = BitVec.allOnes 4 := by decide
  calc hatOperand (opnd &&& opndField 0xF0000000F)
    _ = hatOperand opnd &&& hatOperand (opndField 0xF0000000F) := BitVec.extractLsb'_and
    _ = hatOperand opnd := by rw [hmask, BitVec.and_allOnes]

/-- Every bit of CUPD's operand is used. -/
theorem byteOperand_and_used (opnd : Word32) : byteOperand (opnd &&& opndField 0xF000000FF) = byteOperand opnd := by
  have hmask : byteOperand (opndField 0xF000000FF) = BitVec.allOnes 8 := by decide
  calc byteOperand (opnd &&& opndField 0xF000000FF)
    _ = byteOperand opnd &&& byteOperand (opndField 0xF000000FF) := BitVec.extractLsb'_and
    _ = byteOperand opnd := by rw [hmask, BitVec.and_allOnes]

/-- Every bit of the operand of ENC, APPEND and FRAME is used. -/
theorem wordOperand_and_used (opnd : Word32) : wordOperand (opnd &&& opndField 0xFFFFFFFFF) = wordOperand opnd := by
  have hmask : opndField 0xFFFFFFFFF = BitVec.allOnes 32 := by decide
  rw [hmask, BitVec.and_allOnes]

/-- Every command uses all of OP. -/
theorem opField_and_usedBits (cw : CmdWord) (i : Instr) : opField (cw &&& i.usedBits) = opField cw := by
  have hmask : opField i.usedBits = BitVec.allOnes 4 := by
    cases i with
    | hat => exact (by decide : opField 0xF0000000F = BitVec.allOnes 4)
    | cupd => exact (by decide : opField 0xF000000FF = BitVec.allOnes 4)
    | enc | append | frame => exact (by decide : opField 0xFFFFFFFFF = BitVec.allOnes 4)
    | _ => rfl
  rw [opField_and, hmask, BitVec.and_allOnes]

/-- The mnemonic depends on OP alone. -/
theorem mnemonic_decodeFields (op : Opcode) (x y : Word32) :
    (decodeFields op x).mnemonic = (decodeFields op y).mnemonic := by
  unfold decodeFields
  split <;> rfl

/-- OPND decodes the same with the bits cleared that the commands of this OP ignore. -/
theorem decodeFields_and_usedBits (op : Opcode) (x y : Word32) :
    decodeFields op (x &&& opndField (decodeFields op y).usedBits) = decodeFields op x := by
  unfold decodeFields
  split
  case h_2 => exact congrArg Instr.hat (hatOperand_and_used x)
  case h_3 => exact congrArg Instr.enc (wordOperand_and_used x)
  case h_5 => exact congrArg Instr.cupd (byteOperand_and_used x)
  case h_8 => exact congrArg Instr.append (wordOperand_and_used x)
  case h_9 => exact congrArg Instr.frame (wordOperand_and_used x)
  all_goals rfl

/-- Words that agree on the bits the first one's command uses decode to the same command. -/
theorem decode_eq_of_and_usedBits_eq {cw cw' : CmdWord}
    (h : cw &&& (decode cw).usedBits = cw' &&& (decode cw).usedBits) : decode cw = decode cw' := by
  have hop : opField cw = opField cw' := by
    rw [← opField_and_usedBits cw (decode cw), h, opField_and_usedBits]
  have hopnd : opndField cw &&& opndField (decode cw).usedBits = opndField cw' &&& opndField (decode cw).usedBits := by
    rw [← opndField_and, h, opndField_and]
  calc decode cw
    _ = decodeFields (opField cw) (opndField cw &&& opndField (decode cw).usedBits) :=
      (decodeFields_and_usedBits _ _ _).symm
    _ = decodeFields (opField cw) (opndField cw' &&& opndField (decode cw).usedBits) := by rw [hopnd]
    _ = decodeFields (opField cw) (opndField cw') := decodeFields_and_usedBits _ _ _
    _ = decode cw' := by rw [hop, decode]

end Sys2Proof

namespace Sys2Proof.Machine

/-- A reserved command sets ERR and nothing else (60_exceptions.md R121). -/
theorem State.afterCommand_of_reserved {i : Instr} (h : i.assigned = false) (s : State) :
    s.afterCommand i = { s with err := true } := by
  cases i with
  | reserved9 | reservedA | reservedB | reservedC | reservedD | reservedE | reservedF => rfl
  | _ => cases h

end Sys2Proof.Machine
end

section
/-!
PROOFS. The statements of 30_encoding.md about the fields of a command word: OP, the operands, the ignored bits, and the
reserved opcodes.
-/

namespace Sys2Proof.Machine

/-- Settles O6: the two words decode to the same command, and every command answers a next state. -/
theorem ignoredOperandBitsNeverMatter : Obligations.IgnoredOperandBitsNeverMatter := by
  intro cw cw' s h
  refine ⟨?_, _, performCommand_eq cw s⟩
  rw [performCommand, performCommand, decode_eq_of_and_usedBits_eq h]

/-- Settles O4: the fields are the quotient and the remainder by 2^32, and the mnemonic does not depend on OPND. -/
theorem opcodeFieldAloneSelectsTheCommand : Obligations.OpcodeFieldAloneSelectsTheCommand := by
  refine ⟨fun cw => ⟨toNat_opField cw, toNat_opndField cw⟩, fun cw cw' hop => ?_⟩
  rw [decode, decode, hop]
  exact mnemonic_decodeFields _ _ _

/-- Settles O5: the decoder's operand for each OP, HAT's and CUPD's as remainders. -/
theorem operandsAreTheLowBitsOfOpnd : Obligations.OperandsAreTheLowBitsOfOpnd := by
  intro opnd
  simp only [decode_makeWord, ← hatOperand_eq_ofNat, ← byteOperand_eq_ofNat]
  exact ⟨rfl, rfl, rfl, rfl, rfl, rfl, rfl, rfl, rfl⟩

/-- Settles O7: `assigned` is OP < 9, a reserved command sets ERR alone, and an assigned one keeps ERR. -/
theorem reservedOpcodesAreExactlyNineToFifteen : Obligations.ReservedOpcodesAreExactlyNineToFifteen := by
  intro op opnd s
  have hassigned : (decode (makeWord op opnd)).assigned = decide (op.toNat < 9) := by
    rw [decode_makeWord, assigned_decodeFields]
  have hreserved : (decode (makeWord op opnd)).assigned = false ↔ 9 ≤ op.toNat := by
    rw [hassigned, decide_eq_false_iff_not, not_lt]
  refine ⟨hreserved, fun hop => ?reserved, fun hop => ⟨_, performCommand_eq _ s, ?assigned⟩⟩
  case reserved => rw [performCommand_eq, State.afterCommand_of_reserved (hreserved.mpr hop)]
  case assigned => simp [hassigned, hop]

end Sys2Proof.Machine
end

section
/-!
SUPPORT. The body word as its two parts, the hat value above the 28 button bits, and what its bytes hold of each
(40_hat_encoder.md R81).
-/

namespace Sys2Proof.Machine

/-- Concatenation as arithmetic: the high part counts in units of 2^n. -/
theorem toNat_append_eq_mul_add {k n : Nat} (x : BitVec k) (y : BitVec n) :
    (x ++ y).toNat = x.toNat * 2 ^ n + y.toNat := by
  rw [BitVec.toNat_append, Nat.shiftLeft_eq, Nat.mul_comm, ← Nat.two_pow_add_eq_or_of_lt y.isLt]

/-- A field of ButtonBitmap is the field of raw that lies 4 bits higher. -/
theorem extractLsb'_buttonBitmap (raw : Word32) {k n : Nat} (h : k + n ≤ 28) :
    (buttonBitmap raw).extractLsb' k n = raw.extractLsb' (4 + k) n := by
  apply BitVec.eq_of_getLsbD_eq
  intro i hi
  have hlt : k + i < 28 := by omega
  simp [buttonBitmap, hlt, Nat.add_assoc]

section Body

variable (m : DpadMap) (raw : Word32)

/-- The two parts of the body do not overlap, so joining them by OR is concatenation. -/
theorem encodeBody_eq_append :
    encodeBody m raw = (hatt m (dpadCode raw) ++ buttonBitmap raw : BitVec (4 + 28)) :=
  calc encodeBody m raw
    _ = (hatt m (dpadCode raw)).setWidth 32 <<< 28 ||| (buttonBitmap raw).setWidth 32 := BitVec.or_comm _ _
    _ = (hatt m (dpadCode raw) ++ buttonBitmap raw).setWidth 32 := BitVec.setWidth_append_eq_shiftLeft_setWidth_or.symm
    _ = hatt m (dpadCode raw) ++ buttonBitmap raw := BitVec.setWidth_eq _

theorem encodeBody_hatField : (encodeBody m raw).extractLsb' 28 4 = hatt m (dpadCode raw) := by
  rw [encodeBody_eq_append]
  exact BitVec.extractLsb'_append_eq_left

/-- A field of the body below the hat value is the field of raw that lies 4 bits higher. -/
theorem extractLsb'_encodeBody {k n : Nat} (h : k + n ≤ 28) :
    (encodeBody m raw).extractLsb' k n = raw.extractLsb' (4 + k) n := by
  rw [encodeBody_eq_append, ← extractLsb'_buttonBitmap raw h]
  exact BitVec.extractLsb'_append_eq_of_add_le h

/-- Byte 3 is the one that both parts share: the hat value over the four highest button bits. -/
theorem byteLane_three_encodeBody :
    byteLane (encodeBody m raw) 3 = (hatt m (dpadCode raw) ++ raw.extractLsb' 28 4 : BitVec (4 + 4)) :=
  calc byteLane (encodeBody m raw) 3
    _ = (encodeBody m raw).extractLsb' 28 4 ++ (encodeBody m raw).extractLsb' 24 4 :=
      (BitVec.extractLsb'_append_extractLsb'_eq_extractLsb' (start₁ := 24) (len₁ := 4) rfl).symm
    _ = hatt m (dpadCode raw) ++ raw.extractLsb' 28 4 := by
      rw [encodeBody_hatField, extractLsb'_encodeBody m raw (by decide)]

end Body

end Sys2Proof.Machine
end

section
/-!
PROOFS. The statement of 40_hat_encoder.md about the encoded body word and its bytes.
-/

namespace Sys2Proof.Machine

/-- Settles O13: bytes 0 to 2 are fields of the body below the hat value, and byte 3 is the hat value joined to the four
highest button bits. -/
theorem encodedBodyByteByByte : Obligations.EncodedBodyByteByByte := by
  intro m raw
  have hbyte3 : (byteLane (encodeBody m raw) 3).toNat =
      (hatt m (dpadCode raw)).toNat * 2 ^ 4 + (raw.extractLsb' 28 4).toNat := by
    rw [byteLane_three_encodeBody, toNat_append_eq_mul_add]
  exact ⟨rfl, extractLsb'_encodeBody m raw (by decide), extractLsb'_encodeBody m raw (by decide),
    extractLsb'_encodeBody m raw (by decide), hbyte3⟩

end Sys2Proof.Machine
end

section
/-!
SUPPORT. The CRC commands: what they write, and a run that starts the CRC and folds bytes into it (41_crc.md R91
to R95).
-/

namespace Sys2Proof.Machine

/-- A command word given by its fields has the effect of the command they name (30_encoding.md R60). -/
theorem performCommand_makeWord (op : Opcode) (opnd : Word32) (s : State) :
    performCommand (makeWord op opnd) s = exec (decodeFields op opnd) s := by
  rw [performCommand, decode_makeWord]

/-- A run of command words is the fold of their commands' effects. -/
theorem runCommands_eq (ws : List CmdWord) (s : State) :
    runCommands ws s = .next ((ws.map decode).foldl State.afterCommand s) := by
  induction ws generalizing s with
  | nil => rfl
  | cons cw ws ih => exact (runCommands_cons ws (performCommand_eq cw s)).trans (ih _)

section CrcCommands

variable (s : State)

theorem State.afterCommand_cread : s.afterCommand .cread = s.writeRes (zext48 s.crc) := rfl
theorem State.afterCommand_cfin : s.afterCommand .cfin = s.writeRes (zext48 (~~~ s.crc)) := rfl

/-- CUPD b from `r` in CRC, where the update of `r` by `b` is known (41_crc.md R92). -/
theorem exec_cupd {r c : CrcWord} {b : Byte} (h : crcUpdate r b = c) :
    exec (.cupd b) { s with crc := r } = .next { s with crc := c } := by
  rw [exec_eq, ← h]
  rfl

/-- CUPDs in a row fold their bytes into CRC in order. -/
theorem foldl_afterCommand_cupd (bytes : List Byte) :
    (bytes.map Instr.cupd).foldl State.afterCommand s = s.writeCrc (crcFold s.crc bytes) := by
  induction bytes generalizing s with
  | nil => rfl
  | cons b bytes ih => exact ih (s.afterCommand (.cupd b))

/-- A run of CINIT, CUPDs and one more command performs that command with crc_reg of the bytes in CRC. -/
theorem runCommands_cinit_cupds {ws : List CmdWord} {bytes : List Byte} {i : Instr}
    (h : ws.map decode = .cinit :: bytes.map .cupd ++ [i]) :
    runCommands ws s = .next ((s.writeCrc (crcReg bytes)).afterCommand i) := by
  rw [runCommands_eq, h, List.foldl_concat, List.foldl_cons, foldl_afterCommand_cupd]
  rfl

end CrcCommands

/-- The low bytes of a zero-extended result are those of the value. -/
theorem byteLane_zext48 {n k : Nat} (hk : 8 * k + 8 ≤ 48) (v : BitVec n) : byteLane (zext48 v) k = byteLane v k := by
  apply BitVec.eq_of_getLsbD_eq
  intro i hi
  have hlt : 8 * k + i < 48 := by omega
  simp [byteLane, zext48, hlt]

/-! The values of CRC in the corner cases and examples of R92, R93 and R94. -/

theorem crcUpdate_FFFF_FF : crcUpdate 0xFFFF 0xFF = 0x00FF := by decide
theorem crcUpdate_FFFF_00 : crcUpdate 0xFFFF 0x00 = 0x0F87 := by decide
theorem crcUpdate_0000_00 : crcUpdate 0x0000 0x00 = 0x0000 := by decide
theorem crcUpdate_0F87_00 : crcUpdate 0x0F87 0x00 = 0xF0B8 := by decide
theorem crcReg_nil : crcReg [] = 0xFFFF := rfl
theorem crcReg_00 : crcReg [0x00] = 0x0F87 := crcUpdate_FFFF_00
theorem crcReg_00_00_00_80 : crcReg [0x00, 0x00, 0x00, 0x80] = 0x8729 := by decide

end Sys2Proof.Machine
end

section
/-!
PROOFS. The statements of 41_crc.md about the commands CINIT, CUPD, CREAD and CFIN.
-/

namespace Sys2Proof.Machine

/-- Settles O31: CINIT's effect, which does not depend on what CRC held. -/
theorem cinitStartsTheCrc : Obligations.CinitStartsTheCrc := by
  intro s
  exact ⟨exec_eq .cinit s, fun opnd => (performCommand_makeWord 0x3 opnd s).trans (exec_eq .cinit s),
    exec_eq .cinit { s with crc := 0xFFFF }⟩

/-- Settles O32: CUPD writes the update of CRC, evaluated at the listed values; from 0x0F87 it is not 0x0F87 again. -/
theorem cupdFoldsOneByte : Obligations.CupdFoldsOneByte := by
  intro s
  refine ⟨fun b => exec_eq (.cupd b) s, fun opnd => performCommand_makeWord 0x4 opnd s, exec_cupd s crcUpdate_FFFF_FF,
    exec_cupd s crcUpdate_0000_00, ?sample, ?notIdempotent, exec_cupd State.reset crcUpdate_FFFF_00⟩
  case sample => exact (performCommand_makeWord 0x4 0x00000000 _).trans (exec_cupd s crcUpdate_FFFF_00)
  case notIdempotent =>
    rw [exec_cupd s crcUpdate_0F87_00]
    intro h
    have hcrc : (0xF0B8 : CrcWord) = 0x0F87 := congrArg State.crc (Host.Outcome.next.inj h)
    exact absurd hcrc (by decide)

/-- Settles O33: CREAD's effect, and the runs that bring CRC to crc_reg of no byte and of the byte 0x00. -/
theorem creadReadsTheRegister : Obligations.CreadReadsTheRegister := by
  intro s
  refine ⟨exec_eq .cread s, fun opnd => (performCommand_makeWord 0x5 opnd s).trans (exec_eq .cread s), ?_, ?_⟩
  · rw [runCommands_cinit_cupds s (bytes := []) (i := .cread) (by decide), crcReg_nil, State.afterCommand_cread]
    rfl
  · rw [runCommands_cinit_cupds s (bytes := [0x00]) (i := .cread) (by decide), crcReg_00, State.afterCommand_cread]
    rfl

/-- Settles O34: CFIN's effect leaves CRC, so that a command after it finds what CFIN found; the low bytes of its result
and its runs follow from the rules for both. -/
theorem cfinReadsTheInvertedRegister : Obligations.CfinReadsTheInvertedRegister := by
  intro s
  refine ⟨exec_eq .cfin s, fun opnd => (performCommand_makeWord 0x6 opnd s).trans (exec_eq .cfin s),
    ⟨s.afterCommand .cfin, exec_eq .cfin s, ?lo, ?hi, ?again, ?goesOn⟩, ?empty, ?sample⟩
  case lo => exact byteLane_zext48 (by decide) (~~~ s.crc)
  case hi => exact byteLane_zext48 (by decide) (~~~ s.crc)
  case again => exact exec_eq .cfin _
  case goesOn => exact fun b => exec_eq (.cupd b) _
  case empty =>
    have hresult : zext48 (~~~ (0xFFFF : CrcWord)) = 0 := by decide
    rw [runCommands_cinit_cupds s (bytes := []) (i := .cfin) (by decide), crcReg_nil, State.afterCommand_cfin,
      State.writeCrc_crc, hresult]
    rfl
  case sample =>
    have hresult : zext48 (~~~ (0x8729 : CrcWord)) = 0x78D6 := by decide
    rw [runCommands_cinit_cupds s (bytes := [0x00, 0x00, 0x00, 0x80]) (i := .cfin) (by decide),
      crcReg_00_00_00_80, State.afterCommand_cfin, State.writeCrc_crc, hresult]
    rfl

end Sys2Proof.Machine
end

section
/-!
SUPPORT. The bytes of a frame word: its body's, then its trailer's, the low one first (42_frame.md R110).
-/

namespace Sys2Proof.Machine

section FrameBytes

variable (w : Word32)

/-- Bytes 0 to 3 of a frame lie in its body. -/
theorem byteLane_appendCrc_of_body {k : Nat} (hk : 8 * k + 8 ≤ 32) : byteLane (appendCrc w) k = byteLane w k :=
  BitVec.extractLsb'_append_eq_of_add_le hk

/-- Bytes 4 and 5 of a frame are its trailer's. -/
theorem byteLane_appendCrc_of_trailer {k : Nat} (hk : 32 ≤ 8 * k) :
    byteLane (appendCrc w) k = (crc16 (bodyBytes w)).extractLsb' (8 * k - 32) 8 :=
  BitVec.extractLsb'_append_eq_of_le hk

theorem frameBytes_appendCrc :
    frameBytes (appendCrc w) =
      bodyBytes w ++ [(crc16 (bodyBytes w)).extractLsb' 0 8, (crc16 (bodyBytes w)).extractLsb' 8 8] := by
  simp [frameBytes, bodyBytes, byteLane_appendCrc_of_body, byteLane_appendCrc_of_trailer]

end FrameBytes

theorem State.afterCommand_nop (s : State) : s.afterCommand .nop = s := rfl

end Sys2Proof.Machine
end

section
/-!
PROOFS. The statements of 42_frame.md about the frame word of a body and the command NOP.
-/

namespace Sys2Proof.Machine

/-- Settles O26: the frame word's two parts and its bytes, and APPEND's effect, in which CRC only passes through. -/
theorem appendedFrameIsBodyThenTrailer : Obligations.AppendedFrameIsBodyThenTrailer :=
  ⟨fun w => ⟨appendCrc_body w, appendCrc_trailer w, frameBytes_appendCrc w⟩,
    fun w s c => exec_eq (.append w) { s with crc := c }⟩

/-- Settles O28: OP = 0 selects NOP whatever OPND is, and the all-zero word has OP = 0. -/
theorem nopLeavesTheState : Obligations.NopLeavesTheState := by
  intro s
  have hnop : exec .nop s = .next s := by rw [exec_eq, State.afterCommand_nop]
  have hword : ∀ opnd, performCommand (makeWord 0x0 opnd) s = .next s :=
    fun opnd => (performCommand_makeWord 0x0 opnd s).trans hnop
  have hzero : (0x000000000 : CmdWord) = makeWord 0x0 0 := by decide
  exact ⟨hnop, hword, hzero ▸ hword 0⟩

end Sys2Proof.Machine
end

section
/-!
SUPPORT. When ERR is set and what keeps it: a reserved command, a run, an event and a step (60_exceptions.md R121, R126), and
when a step is refused (R129).
-/

namespace Sys2Proof.Machine

/-- A word decodes to a reserved command exactly if its OP is 0x9..0xF (30_encoding.md R64). -/
theorem assigned_decode_eq_false_iff (cw : CmdWord) : (decode cw).assigned = false ↔ 9 ≤ (opField cw).toNat := by
  rw [decode, assigned_decodeFields, decide_eq_false_iff_not, not_lt]

theorem exec_of_reserved {i : Instr} (h : i.assigned = false) (s : State) :
    exec i s = .next { s with err := true } := by
  rw [exec_eq, State.afterCommand_of_reserved h]

theorem hasReserved_iff (ws : List CmdWord) :
    hasReserved ws = true ↔ ∃ cw ∈ ws, 9 ≤ (opField cw).toNat := by
  simp only [hasReserved, List.any_eq_true, Bool.not_eq_true', assigned_decode_eq_false_iff]

/-- ERR after a run of commands: it was set before, or one of them was reserved. -/
theorem foldl_afterCommand_err (ws : List CmdWord) (s : State) :
    ((ws.map decode).foldl State.afterCommand s).err = (hasReserved ws || s.err) := by
  induction ws generalizing s with
  | nil => rfl
  | cons cw ws ih =>
    have hcons : hasReserved (cw :: ws) = (!(decode cw).assigned || hasReserved ws) := rfl
    rw [List.map_cons, List.foldl_cons, ih, State.afterCommand_err, hcons, Bool.or_left_comm, Bool.or_assoc]

/-- An event that takes ERR from 1 to 0 is a reset request or a power-up. -/
theorem eq_reset_of_performEvent_clears_err {e : PortEvent} {s t : State} (h : performEvent e s = .next t)
    (hs : s.err = true) (ht : t.err = false) : e = .powerUp ∨ ∃ presented, e = .reset presented := by
  cases e with
  | command cw =>
    have hkept : t.err = true := by rw [exec_eq_next_iff.mp h, State.afterCommand_err, hs, Bool.or_true]
    rw [hkept] at ht
    cases ht
  | reset presented => exact .inr ⟨presented, rfl⟩
  | powerUp => exact .inl rfl

theorem exists_performEvent_eq_next (e : PortEvent) (s : State) : ∃ t, performEvent e s = .next t := by
  cases e with
  | command cw => exact ⟨_, performCommand_eq cw s⟩
  | reset presented => exact ⟨_, rfl⟩
  | powerUp => exact ⟨_, rfl⟩

/-- With one issuer and nothing presented, a step keeps the state (60_exceptions.md R123). -/
theorem step_eq_self_of_idle {s : State} (hone : s.config.issuers = .one) (hin : s.inputs = []) : step s = .next s := by
  simp only [step, stepConfigured, takeNextEvent, hone, hin]

/-- With one issuer, every step answers a next state. -/
theorem exists_step_eq_next {s : State} (hone : s.config.issuers = .one) : ∃ t, step s = .next t := by
  cases hin : s.inputs with
  | nil => exact ⟨s, step_eq_self_of_idle hone hin⟩
  | cons e rest =>
    rw [step_eq_performEvent hone hin]
    exact exists_performEvent_eq_next e _

theorem step_of_several {s : State} (h : s.config.issuers = .several) : step s = .refused .multipleIssuers := by
  simp only [step, stepConfigured, h]

end Sys2Proof.Machine
end

section
/-!
PROOFS. The statements of 60_exceptions.md: the one exception, what raises and clears ERR, and the refused configuration.
-/

namespace Sys2Proof.Machine

/-- Settles O37: the effect of a reserved command is to set ERR; ERR after a command, and by induction after a run, is its
value before or 1 for a reserved OP. -/
theorem reservedCommandsSetErrAlone : Obligations.ReservedCommandsSetErrAlone := by
  refine ⟨fun s => ?effect, fun cw s herr => ⟨_, performCommand_eq cw s, ?oneCommand⟩,
    fun ws => ⟨_, runCommands_eq ws State.reset, ?run⟩, rfl⟩
  case effect =>
    exact ⟨exec_of_reserved rfl s, exec_of_reserved rfl s, exec_of_reserved rfl s, exec_of_reserved rfl s,
      exec_of_reserved rfl s, exec_of_reserved rfl s, exec_of_reserved rfl s⟩
  case oneCommand =>
    rw [State.afterCommand_err, herr, Bool.or_false, Bool.not_eq_true', assigned_decode_eq_false_iff]
  case run =>
    have hreset : State.reset.err = false := rfl
    rw [foldl_afterCommand_err, hreset, Bool.or_false, hasReserved_iff]

/-- Settles O38: an assigned command's effect keeps ERR, and NOP's is the same state. -/
theorem assignedCommandsRaiseNothing : Obligations.AssignedCommandsRaiseNothing := by
  refine ⟨fun i s hassigned => ⟨_, exec_eq i s, ?_⟩, exec_eq .nop⟩
  rw [State.afterCommand_err, hassigned, Bool.not_true, Bool.false_or]

/-- Settles O39: each command's effect is a next state. -/
theorem everyCommandIsAvailable : Obligations.EveryCommandIsAvailable :=
  fun i s => ⟨s.afterCommand i, exec_eq i s⟩

/-- Settles O49: with one issuer the step answers a next state, which is no refusal. -/
theorem severalIssuersAreRefused : Obligations.SeveralIssuersAreRefused := by
  refine fun s => ⟨fun hrefused => ?_, step_of_several⟩
  cases hissuers : s.config.issuers with
  | several => rfl
  | one =>
    obtain ⟨t, hnext⟩ := exists_step_eq_next hissuers
    rw [hnext] at hrefused
    cases hrefused

/-- Settles O50: setting ERR where it is 1 changes nothing, and of what a step can do only a reset clears it. -/
theorem onlyResetClearsErr : Obligations.OnlyResetClearsErr := by
  refine ⟨fun cw s hop hs => ?reserved, fun s t h hs ht => ?cleared⟩
  case reserved =>
    have hsame : { s with err := true } = s := by rw [← hs]
    rw [performCommand, exec_of_reserved ((assigned_decode_eq_false_iff cw).mpr hop), hsame]
  case cleared =>
    obtain ⟨-, ⟨-, rfl⟩ | ⟨e, rest, hin, hevent⟩⟩ := step_cases h
    · rw [hs] at ht
      cases ht
    · exact ⟨e, rest, hin, eq_reset_of_performEvent_clears_err hevent hs ht⟩

end Sys2Proof.Machine
end

section
/-!
PROOFS. The statement of 70_reset_and_hazards.md: a reset request or a power-up, and the command presented with it.
-/

namespace Sys2Proof.Machine

/-- A power-up and a reset request perform one and the same reset, whatever command word comes with the request
(70_reset_and_hazards.md R140, R141). -/
theorem performEvent_eq_applyReset {e : PortEvent} (h : e = .powerUp ∨ ∃ presented, e = .reset presented)
    (s : State) : performEvent e s = .next s.applyReset := by
  obtain rfl | ⟨presented, rfl⟩ := h
  · rfl
  · rfl

/-- Settles O48: the step performs the event it takes, and both kinds of event perform the reset, which writes CRC, RES and
ERR alone. -/
theorem resetDiscardsThePresentedCommand : Obligations.ResetDiscardsThePresentedCommand := by
  intro s e rest hone hin hreset
  have hwrites : State.applyReset { s with inputs := rest } =
      { s with crc := 0xFFFF, res := 0, err := false, inputs := rest } := rfl
  rw [step_eq_performEvent hone hin, performEvent_eq_applyReset hreset, hwrites]

end Sys2Proof.Machine
end

section
/-!
SUPPORT. The encoder against the decoder, command by command (30_encoding.md R61, R63, R68).
-/

namespace Sys2Proof

/-- The low bits of a zero-extended value are the value. -/
theorem extractLsb'_zero_setWidth {k n : Nat} (h : k ≤ n) (v : BitVec k) : (v.setWidth n).extractLsb' 0 k = v := by
  rw [← BitVec.setWidth_eq_extractLsb' h, BitVec.setWidth_setWidth_of_le _ h, BitVec.setWidth_eq]

@[simp] theorem decode_encode (i : Instr) : decode (encode i) = i := by
  rw [encode, decode_makeWord]
  cases i with
  | hat d => exact congrArg Instr.hat (extractLsb'_zero_setWidth (by decide) d)
  | cupd b => exact congrArg Instr.cupd (extractLsb'_zero_setWidth (by decide) b)
  | _ => rfl

/-- Encoded commands decode to the commands, in order. -/
@[simp] theorem map_decode_map_encode (is : List Instr) : (is.map encode).map decode = is := by
  rw [List.map_map]
  exact (List.map_congr_left fun i _ => decode_encode i).trans (List.map_id is)

/-- The low `n` bits of OPND, zero-extended, are OPND with every other bit cleared. -/
theorem setWidth_extractLsb'_eq_and (n : Nat) (opnd : Word32) :
    (opnd.extractLsb' 0 n).setWidth 32 = opnd &&& BitVec.ofNat 32 (2 ^ n - 1) := by
  apply BitVec.eq_of_getLsbD_eq
  intro i hi
  rw [BitVec.getLsbD_setWidth, BitVec.getLsbD_extractLsb', BitVec.getLsbD_and, BitVec.getLsbD_ofNat,
    Nat.testBit_two_pow_sub_one, Nat.zero_add, decide_eq_true hi, Bool.true_and, Bool.true_and, Bool.and_comm]

theorem opcode_decodeFields (op : Opcode) (opnd : Word32) : (decodeFields op opnd).opcode = op := by
  apply BitVec.eq_of_toNat_eq
  unfold decodeFields
  split <;> simp_all [Instr.opcode]
  -- The decoder's last case: OP is none of 0x0..0xE.
  omega

/-- The encoder's OPND for a decoded command is OPND with the command's ignored bits cleared. -/
theorem operandBits_decodeFields (op : Opcode) (opnd : Word32) :
    (decodeFields op opnd).operandBits = opnd &&& opndField (decodeFields op opnd).usedBits := by
  have hnone : opnd &&& opndField 0xF00000000 = 0 := by
    rw [(by decide : opndField 0xF00000000 = 0)]
    exact BitVec.and_zero
  have hall : opnd &&& opndField 0xFFFFFFFFF = opnd := wordOperand_and_used opnd
  have hhat : opndField 0xF0000000F = BitVec.ofNat 32 (2 ^ 4 - 1) := by decide
  have hcupd : opndField 0xF000000FF = BitVec.ofNat 32 (2 ^ 8 - 1) := by decide
  unfold decodeFields
  split
  case h_2 => exact (setWidth_extractLsb'_eq_and _ opnd).trans (by rw [← hhat]; rfl)
  case h_5 => exact (setWidth_extractLsb'_eq_and _ opnd).trans (by rw [← hcupd]; rfl)
  case h_3 | h_8 | h_9 => exact hall.symm
  all_goals exact hnone.symm

/-! The opcode map: a word selects its rows by OP alone, and each OP selects one. -/

theorem mask_of_mem_opcodeRows : ∀ row ∈ opcodeRows, row.mask = 0xF00000000 := by decide

theorem selectedBy_makeWord {row : OpcodeRow} (h : row ∈ opcodeRows) (op : Opcode) (opnd : Word32) :
    row.selectedBy (makeWord op opnd) = row.selectedBy (makeWord op 0) := by
  simp only [OpcodeRow.selectedBy, mask_of_mem_opcodeRows row h, makeWord_and_opcodeMask]

theorem filter_opcodeRows_of_opcode : ∀ op : Opcode,
    (opcodeRows.filter fun row => row.selectedBy (makeWord op 0)).map OpcodeRow.mnemonic =
      [(decodeFields op 0).mnemonic] := by
  decide

end Sys2Proof
end

section
/-!
PROOFS. The statements of 30_encoding.md about the encoder and the opcode map.
-/

namespace Sys2Proof.Machine

/-- Settles O1: the decoder reads back the opcode, and each operand from the field the encoder put it in. -/
theorem decodeOfEncodeIsIdentity : Obligations.DecodeOfEncodeIsIdentity :=
  decode_encode

/-- Settles O2: the encoder writes OP back whole and OPND with the ignored bits cleared, which is masking each field of the
word. -/
theorem encodeOfDecodeClearsIgnoredBits : Obligations.EncodeOfDecodeClearsIgnoredBits := by
  intro cw
  calc encode (decode cw)
    _ = makeWord (opField cw) (opndField cw &&& opndField (decode cw).usedBits) := by
      rw [encode, decode, opcode_decodeFields, operandBits_decodeFields]
    _ = makeWord (opField (cw &&& (decode cw).usedBits)) (opndField (cw &&& (decode cw).usedBits)) := by
      rw [opField_and_usedBits, opndField_and]
    _ = cw &&& (decode cw).usedBits := makeWord_fields _

/-- Settles O3: the rows a word selects and its command's mnemonic depend on OP alone, and each OP selects one row. -/
theorem everyWordSelectsExactlyOneRow : Obligations.EveryWordSelectsExactlyOneRow := by
  intro cw
  have hrows : (opcodeRows.filter fun row => row.selectedBy cw) =
      opcodeRows.filter fun row => row.selectedBy (makeWord (opField cw) 0) :=
    List.filter_congr fun row hrow => by rw [← selectedBy_makeWord hrow _ (opndField cw), makeWord_fields]
  obtain ⟨row, hfilter, hname⟩ := List.map_eq_singleton_iff.mp (filter_opcodeRows_of_opcode (opField cw))
  exact ⟨row, hrows.trans hfilter, hname.trans (mnemonic_decodeFields _ _ _)⟩

/-- Settles O8, by evaluating the decoder. -/
theorem specWordsDecode : Obligations.SpecWordsDecode := by
  unfold Obligations.SpecWordsDecode
  decide

end Sys2Proof.Machine
end

section
/-!
SUPPORT. The assembler on one line (30_encoding.md R66).
-/

namespace Sys2Proof.Machine

theorem assemble_eq_ok {l : SourceLine} (h : l.problem = none) : assemble l = .ok (lineWords l) := by
  rw [assemble, h]

theorem assemble_eq_error {l : SourceLine} {e : SourceError} (h : l.problem = some e) : assemble l = .error e := by
  rw [assemble, h]

/-- A command line that nothing is wrong with assembles to its command's word. -/
theorem assemble_command_eq_ok {m : Mnemonic} {operand : Option Nat} (h : (SourceLine.command m operand).problem = none) :
    assemble (.command m operand) = .ok [encode (commandOf m (operand.getD 0))] :=
  assemble_eq_ok h

theorem literalFits_of_lt {width v : Nat} (h : v < 2 ^ width) : literalFits width v = true :=
  decide_eq_true h

section Command

variable {m : Mnemonic} {width v : Nat}

theorem problem_of_fits (hm : m.operandWidth = some width) (hv : v < 2 ^ width) :
    (SourceLine.command m (some v)).problem = none := by
  simp only [SourceLine.problem, hm, literalFits_of_lt hv, if_true]

theorem problem_of_too_large (hm : m.operandWidth = some width) (hv : 2 ^ width ≤ v) :
    (SourceLine.command m (some v)).problem = some .operandTooLarge := by
  simp [SourceLine.problem, hm, literalFits, hv]

theorem problem_of_missing (hm : m.operandWidth = some width) :
    (SourceLine.command m none).problem = some .missingOperand := by
  simp only [SourceLine.problem, hm]

theorem problem_of_no_operand (hm : m.operandWidth = none) : (SourceLine.command m none).problem = none := by
  simp only [SourceLine.problem, hm]

theorem problem_of_unexpected (hm : m.operandWidth = none) (v : Nat) :
    (SourceLine.command m (some v)).problem = some .unexpectedOperand := by
  simp only [SourceLine.problem, hm]

/-- An operand that fits its field is OPND, not truncated. -/
theorem toNat_operandBits_commandOf (hm : m.operandWidth = some width) (hv : v < 2 ^ width) :
    (commandOf m v).operandBits.toNat = v := by
  cases m with
  | hat | cupd =>
    cases hm
    exact (BitVec.toNat_setWidth_of_le (by decide)).trans (Nat.mod_eq_of_lt hv)
  | enc | append | frame =>
    cases hm
    exact Nat.mod_eq_of_lt hv
  | _ => cases hm

theorem operandBits_commandOf (hm : m.operandWidth = none) (v : Nat) : (commandOf m v).operandBits = 0 := by
  cases m <;> cases hm <;> rfl

end Command

theorem toNat_encode (i : Instr) : (encode i).toNat = i.opcode.toNat * 2 ^ 32 + i.operandBits.toNat :=
  toNat_makeWord _ _

end Sys2Proof.Machine
end

section
/-!
PROOFS. The statement of 30_encoding.md about the assembler's command lines.
-/

namespace Sys2Proof.Machine

/-- Settles O9: each clause names what is wrong with the line, or that nothing is and the line's word is its command's. -/
theorem assemblerEncodesOrRefusesByName : Obligations.AssemblerEncodesOrRefusesByName := by
  intro m
  refine ⟨fun width v hm hv => ⟨encode (commandOf m v), ?fits, ?word, decode_encode _⟩,
    fun width v hm hv => assemble_eq_error (problem_of_too_large hm hv),
    fun width hm => assemble_eq_error (problem_of_missing hm),
    fun hm => ⟨⟨encode (commandOf m 0), ?none, ?noneWord, decode_encode _⟩,
      fun v => assemble_eq_error (problem_of_unexpected hm v)⟩⟩
  case fits => exact assemble_command_eq_ok (problem_of_fits hm hv)
  case word => rw [toNat_encode, toNat_operandBits_commandOf hm hv]
  case none => exact assemble_command_eq_ok (problem_of_no_operand hm)
  case noneWord => simp [toNat_encode, operandBits_commandOf hm]

end Sys2Proof.Machine
end

section
/-!
SUPPORT. Every result is a legal value of RES (10_state.md R24, R27).
-/

namespace Sys2Proof.Machine

/-- A zero-extended result of at most 32 bits is legal if its own bits 31..28 hold at most 8. -/
theorem resLegal_zext48 {n : Nat} (hn : n ≤ 32) {v : BitVec n} (hv : (v.extractLsb' 28 4).toNat ≤ 8) :
    ResLegal (zext48 v) := by
  have hfield : (zext48 v).extractLsb' 28 4 = v.extractLsb' 28 4 := by
    apply BitVec.eq_of_getLsbD_eq
    intro k hk
    have hlt : 28 + k < 48 := by omega
    simp [zext48, hlt]
  exact .inl ⟨zext48_trailer hn v, hfield ▸ hv⟩

/-- A result of at most 28 bits has a body nibble of 0. -/
theorem resLegal_zext48_of_narrow {n : Nat} (hn : n ≤ 28) (v : BitVec n) : ResLegal (zext48 v) := by
  have hfield : v.extractLsb' 28 4 = 0 := by
    apply BitVec.eq_of_getLsbD_eq
    intro k _
    simp [BitVec.getLsbD_of_ge v (28 + k) (by omega)]
  exact resLegal_zext48 (by omega) (by rw [hfield]; decide)

theorem resLegal_appendCrc (w : Word32) : ResLegal (appendCrc w) := by
  refine .inr ?_
  rw [appendCrc_trailer, appendCrc_body]

theorem resLegal_zero : ResLegal 0 :=
  resLegal_zext48_of_narrow (n := 0) (by decide) 0

theorem resLegal_nextRes (i : Instr) {s : State} (h : ResLegal s.res) : ResLegal (nextRes i s) := by
  cases i with
  | hat d => exact resLegal_zext48_of_narrow (by decide) _
  | enc raw => exact resLegal_zext48 (by decide) (encodeBody_hatField _ raw ▸ toNat_hatt_le _ _)
  | cread | cfin => exact resLegal_zext48_of_narrow (by decide) _
  | append w | frame w => exact resLegal_appendCrc _
  | _ => exact h

theorem resLegal_performEvent {e : PortEvent} {s t : State} (hs : ResLegal s.res) (h : performEvent e s = .next t) :
    ResLegal t.res := by
  obtain ⟨cw, -, hexec⟩ | ⟨-, rfl⟩ := performEvent_cases h
  · rw [exec_eq_next_iff.mp hexec, State.afterCommand_res]
    exact resLegal_nextRes _ hs
  · exact resLegal_zero

end Sys2Proof.Machine
end

section
/-!
PROOFS. The invariant on RES: every step keeps it, and it holds after reset (10_state.md sections 3, 5 and 7).
-/

namespace Sys2Proof.Machine

/-- Settles O52: a step keeps the state, or performs a command or a reset, and each result and 0 are legal. -/
theorem stepKeepsResLegal : Obligations.StepKeepsResLegal := by
  intro s t hs h
  obtain ⟨-, ⟨-, rfl⟩ | ⟨e, rest, -, hevent⟩⟩ := step_cases h
  · exact hs
  · exact resLegal_performEvent (s := { s with inputs := rest }) hs hevent

/-- Settles O53: RES is 0 after reset. -/
theorem resetResIsLegal : Obligations.ResetResIsLegal :=
  resLegal_zero

end Sys2Proof.Machine
end

section
/-!
SUPPORT. DpadCodes by the directions they hold, under every DPAD_MAP (00_scope.md R8, 20_memory.md R41).
-/

namespace Sys2Proof.Machine

/-- The DpadCode in which exactly the directions with `set x` are pressed. -/
def dpadCodeOf (m : DpadMap) (set : Direction → Bool) : Nibble :=
  BitVec.ofFnLE fun k => [Direction.up, .right, .down, .left].any fun x => decide (m.bitOf x = k) && set x

theorem bitOf_eq_bitOf_iff {m : DpadMap} {x y : Direction} : m.bitOf x = m.bitOf y ↔ x = y :=
  ⟨bitOf_injective m, congrArg m.bitOf⟩

theorem pressed_dpadCodeOf (m : DpadMap) (set : Direction → Bool) (x : Direction) :
    pressed m (dpadCodeOf m set) x = set x := by
  rw [pressed, dpadCodeOf, BitVec.getLsbD_ofFnLE, dif_pos (m.bitOf x).isLt]
  simp only [Fin.eta, bitOf_eq_bitOf_iff]
  cases x <;> simp

/-- The DpadCode of a set of directions has the set's hat value. -/
theorem hatt_dpadCodeOf (m : DpadMap) (set : Direction → Bool) :
    hatt m (dpadCodeOf m set) = hatOfSet (set .up) (set .right) (set .down) (set .left) :=
  hatt_of_pressed (pressed_dpadCodeOf m set _) (pressed_dpadCodeOf m set _) (pressed_dpadCodeOf m set _)
    (pressed_dpadCodeOf m set _)

theorem exists_hatOfSet_eq : ∀ v : Nibble, v.toNat ≤ 8 →
    ∃ up right down left : Bool, hatOfSet up right down left = v := by
  decide

/-- Four directions without a shared bit take all four bits of the DpadCode. -/
theorem exists_bitOf_eq (m : DpadMap) (k : Fin 4) : ∃ x, m.bitOf x = k := by
  have hall : [m.up, m.right, m.down, m.left].toFinset = Finset.univ :=
    Finset.eq_univ_of_card _ (List.toFinset_card_of_nodup m.distinct)
  have hk : k ∈ [m.up, m.right, m.down, m.left].toFinset := hall ▸ Finset.mem_univ k
  simp only [List.mem_toFinset, List.mem_cons, List.not_mem_nil, or_false] at hk
  obtain rfl | rfl | rfl | rfl := hk
  · exact ⟨.up, rfl⟩
  · exact ⟨.right, rfl⟩
  · exact ⟨.down, rfl⟩
  · exact ⟨.left, rfl⟩

theorem hatt_zero (m : DpadMap) : hatt m 0x0 = 8 := by
  have hnone : ∀ x, pressed m 0x0 x = false := fun _ => BitVec.getLsbD_zero
  rw [hatt, hnone, hnone, hnone, hnone, hatOfSet]

theorem hatt_allOnes (m : DpadMap) : hatt m 0xF = 8 := by
  have hall : ∀ x, pressed m 0xF x = true := fun x =>
    (BitVec.getLsbD_allOnes (v := 4)).trans (decide_eq_true (m.bitOf x).isLt)
  exact hatt_of_up_down (hall _) (hall _)

/-- One direction alone has a value of its own, which is not the null value. -/
theorem hatt_single_ne (m : DpadMap) (k : Fin 4) : hatt m (1#4 <<< k.val) ≠ 8 := by
  obtain ⟨y, rfl⟩ := exists_bitOf_eq m k
  have hpressed : ∀ x, pressed m (1#4 <<< (m.bitOf y).val) x = decide (x = y) := by
    intro x
    rw [pressed, ← BitVec.twoPow_eq, BitVec.getLsbD_twoPow]
    simp [(m.bitOf y).isLt, ← Fin.ext_iff, bitOf_eq_bitOf_iff, eq_comm]
  rw [hatt, hpressed, hpressed, hpressed, hpressed]
  cases y <;> decide

end Sys2Proof.Machine
end

section
/-!
SUPPORT. The body word bit by bit, and its value where both of its parts are known (40_hat_encoder.md R81, R82, R84).
-/

namespace Sys2Proof.Machine

variable (m : DpadMap) (raw : Word32)

/-- Button bit `i` of raw is bit `i` of the body. -/
theorem getLsbD_encodeBody {i : Nat} (hi : i < 28) : (encodeBody m raw).getLsbD i = raw.getLsbD (i + 4) := by
  rw [encodeBody_eq_append, BitVec.getLsbD_append, if_pos hi, buttonBitmap, BitVec.getLsbD_extractLsb', Nat.add_comm,
    decide_eq_true hi, Bool.true_and]

theorem encodeBody_of_parts {m : DpadMap} {raw : Word32} {d v : Nibble} {b : BitVec 28} (hcode : dpadCode raw = d)
    (hhat : hatt m d = v) (hbuttons : buttonBitmap raw = b) : encodeBody m raw = (v ++ b : BitVec (4 + 28)) := by
  rw [encodeBody_eq_append, hcode, hhat, hbuttons]

theorem encodeBody_zero : encodeBody m 0x00000000 = 0x80000000 :=
  encodeBody_of_parts (b := 0) (by decide) (hatt_zero m) (by decide)

theorem encodeBody_allOnes : encodeBody m 0xFFFFFFFF = 0x8FFFFFFF :=
  encodeBody_of_parts (b := 0xFFFFFFF) (by decide) (hatt_allOnes m) (by decide)

/-- An opposing pair of raw's direction bits gives the null value. -/
theorem encodeBody_hatField_of_opposing
    (h : raw.getLsbD (m.bitOf .up).val = true ∧ raw.getLsbD (m.bitOf .down).val = true ∨
      raw.getLsbD (m.bitOf .left).val = true ∧ raw.getLsbD (m.bitOf .right).val = true) :
    (encodeBody m raw).extractLsb' 28 4 = 8 := by
  have hpressed : ∀ x, pressed m (dpadCode raw) x = raw.getLsbD (m.bitOf x).val := by
    intro x
    simp [pressed, dpadCode]
  rw [encodeBody_hatField]
  obtain ⟨hup, hdown⟩ | ⟨hleft, hright⟩ := h
  · exact hatt_of_up_down ((hpressed _).trans hup) ((hpressed _).trans hdown)
  · exact hatt_of_right_left ((hpressed _).trans hright) ((hpressed _).trans hleft)

/-- With no button and no direction but bit `i`, the body differs from the idle one: in the hat value for a direction
bit, in body bit `i - 4` for a button bit. -/
theorem encodeBody_single_ne {i : Nat} (hi : i < 32) : encodeBody m (1#32 <<< i) ≠ encodeBody m 0#32 := by
  intro h
  by_cases h4 : i < 4
  · have hcode : dpadCode (1#32 <<< i) = 1#4 <<< i := by interval_cases i <;> rfl
    have hhat : hatt m (1#4 <<< i) = hatt m 0x0 := by
      rw [← hcode, ← encodeBody_hatField, h, encodeBody_hatField]
      rfl
    exact hatt_single_ne m ⟨i, h4⟩ (hhat.trans (hatt_zero m))
  · have hbit : (1#32 <<< i).getLsbD (i - 4 + 4) = (0#32).getLsbD (i - 4 + 4) := by
      rw [← getLsbD_encodeBody m _ (by omega), h, getLsbD_encodeBody m _ (by omega)]
    rw [Nat.sub_add_cancel (by omega), ← BitVec.twoPow_eq, BitVec.getLsbD_twoPow] at hbit
    simp [hi] at hbit

end Sys2Proof.Machine
end

section
/-!
PROOFS. The statements about the hat table under every and under the default DPAD_MAP, and the laws of the report encoder
(20_memory.md section 2, 40_hat_encoder.md sections 2 and 4).
-/

namespace Sys2Proof.Machine

/-- Settles O11: a set of directions has the value, and the DpadCode that presses exactly this set has the set's value. -/
theorem hatTableReachesEveryHatValue : Obligations.HatTableReachesEveryHatValue := by
  intro m v hv
  obtain ⟨up, right, down, left, hset⟩ := exists_hatOfSet_eq v hv
  exact ⟨dpadCodeOf m (Direction.rec up right down left), (hatt_dpadCodeOf m _).trans hset⟩

/-- Settles O12, by evaluating the table. -/
theorem hatTableUnderTheDefaultMap : Obligations.HatTableUnderTheDefaultMap := by
  unfold Obligations.HatTableUnderTheDefaultMap
  decide

/-- Settles O14: the button bits are the body's low part. -/
theorem buttonBitsLandInOrder : Obligations.ButtonBitsLandInOrder :=
  fun m raw _ hi => getLsbD_encodeBody m raw hi

/-- Settles O15: the body is the hat value above the button bits; where both parts are known or agree, so are the bodies. -/
theorem encoderLawsHold : Obligations.EncoderLawsHold := by
  refine ⟨fun m raw => ⟨encodeBody_hatField m raw, ?range⟩, fun m raw h => encodeBody_hatField_of_opposing m raw h,
    encodeBody_allOnes, ?sameBody, ?nullCodes⟩
  case range =>
    rw [encodeBody_hatField]
    exact toNat_hatt_le _ _
  case sameBody =>
    intro m raw raw' hbuttons hhat hhat'
    rw [encodeBody_of_parts rfl hhat hbuttons, encodeBody_of_parts rfl hhat' rfl]
    rfl
  case nullCodes => decide

/-- Settles O16: flipping a bit of the idle raw changes the body. -/
theorem encoderUsesAllThirtyTwoBits : Obligations.EncoderUsesAllThirtyTwoBits := by
  intro m i hi
  refine ⟨0#32, ?_⟩
  rw [BitVec.zero_xor]
  exact encodeBody_single_ne m hi

end Sys2Proof.Machine
end

section
/-!
SUPPORT. The bit-serial division as a map on registers: it is linear and injective, its first k steps shift out k zero bits
unchanged, and a table-driven update is eight of its steps (20_memory.md R43, 41_crc.md R96, R98).
-/

namespace Sys2Proof.Machine

theorem crcShift8_eq_iterate (c : CrcWord) : crcShift8 c = crcShift^[8] c := rfl

theorem crcShift_iterate_xor (k : Nat) (a b : CrcWord) :
    crcShift^[k] (a ^^^ b) = crcShift^[k] a ^^^ crcShift^[k] b := by
  induction k generalizing a b with
  | zero => rfl
  | succ k ih => rw [Function.iterate_succ_apply, crcShift_xor, ih]; rfl

/-- While the bits shifted out are 0, the division only shifts. -/
theorem crcShift_iterate_of_low_zero {k : Nat} {c : CrcWord} (h : ∀ i < k, c.getLsbD i = false) :
    crcShift^[k] c = c >>> k := by
  induction k with
  | zero => exact (BitVec.ushiftRight_zero c).symm
  | succ k ih =>
    have heven : (c >>> k).getLsbD 0 = false := by
      rw [BitVec.getLsbD_ushiftRight]
      exact h k k.lt_succ_self
    rw [Function.iterate_succ_apply', ih fun i hi => h i (hi.trans k.lt_succ_self), crcShift_of_even heven,
      BitVec.shiftRight_add]

/-- The division's feedback reaches bit 15 and nothing else does: bit 15 after a step is the bit shifted out. -/
theorem getLsbD_fifteen_crcShift (c : CrcWord) : (crcShift c).getLsbD 15 = c.getLsbD 0 := by
  have htop : (c >>> 1).getLsbD 15 = false := by
    rw [BitVec.getLsbD_ushiftRight]
    exact BitVec.getLsbD_of_ge c 16 le_rfl
  have hfeedback : crcPolynomial.getLsbD 15 = true := by decide
  unfold crcShift
  split
  case isTrue h => rw [BitVec.getLsbD_xor, htop, hfeedback, h]; rfl
  case isFalse h => rw [htop, Bool.eq_false_of_not_eq_true h]

/-- No step loses information: bit 15 tells the bit shifted out, and the other bits are then the feedback's or the
register's. -/
theorem crcShift_injective : Function.Injective crcShift := by
  intro a b h
  have hbit : a.getLsbD 0 = b.getLsbD 0 := by
    rw [← getLsbD_fifteen_crcShift, h, getLsbD_fifteen_crcShift]
  have hrest : a >>> 1 = b >>> 1 := by
    unfold crcShift at h
    rw [hbit] at h
    split at h
    · exact (BitVec.xor_left_inj _).mp h
    · exact h
  apply BitVec.eq_of_getLsbD_eq
  intro i _
  cases i with
  | zero => exact hbit
  | succ i =>
    have hi := congrArg (fun c => c.getLsbD i) hrest
    simpa [Nat.add_comm] using hi

/-- Sixteen bits are finitely many registers, so an injective division step reaches all of them. -/
theorem crcShift_iterate_surjective (k : Nat) : Function.Surjective crcShift^[k] :=
  Finite.surjective_of_injective (crcShift_injective.iterate k)

theorem setWidth_byte_eq_append (b : Byte) : b.setWidth 16 = (0#8 ++ b : BitVec (8 + 8)) :=
  BitVec.setWidth_eq_append (by decide)

/-- A byte has no high byte. -/
theorem setWidth_byte_shiftRight_eight (b : Byte) : (b.setWidth 16 : CrcWord) >>> 8 = 0#16 := by
  rw [← BitVec.setWidth_ushiftRight (by decide), BitVec.ushiftRight_eq_zero le_rfl]
  rfl

/-- Eight steps only shift the high byte down; what they make of the low byte is its table entry. -/
theorem crcShift8_eq_table (c : CrcWord) : crcShift8 c = (c >>> 8) ^^^ crct (c.extractLsb' 0 8) := by
  have hhigh : crcShift^[8] (c ^^^ (c.extractLsb' 0 8).setWidth 16) = c >>> 8 := by
    rw [crcShift_iterate_of_low_zero, BitVec.ushiftRight_xor_distrib, setWidth_byte_shiftRight_eight, BitVec.xor_zero]
    intro i hi
    have hi16 : i < 16 := hi.trans (by decide)
    simp [hi, hi16]
  calc crcShift8 c
    _ = crcShift^[8] (c ^^^ (c.extractLsb' 0 8).setWidth 16 ^^^ (c.extractLsb' 0 8).setWidth 16) := by
      rw [BitVec.xor_assoc, BitVec.xor_self, BitVec.xor_zero, crcShift8_eq_iterate]
    _ = (c >>> 8) ^^^ crct (c.extractLsb' 0 8) := by
      rw [crcShift_iterate_xor, hhigh, crct, crcShift8_eq_iterate]

/-- A table-driven update is eight division steps (41_crc.md R96). -/
theorem crcUpdate_eq_crcShift8 (r : CrcWord) (b : Byte) : crcUpdate r b = crcShift8 (r ^^^ b.setWidth 16) := by
  rw [crcShift8_eq_table, BitVec.ushiftRight_xor_distrib, setWidth_byte_shiftRight_eight, BitVec.xor_zero, crcUpdate]

/-- Eight steps shift a byte from the register's high half to its low half. -/
theorem crcShift_iterate_highByte (b : Byte) : crcShift^[8] (b ++ 0#8 : BitVec (8 + 8)) = b.setWidth 16 := by
  have hzero : ∀ i < 8, (b ++ 0#8 : BitVec (8 + 8)).getLsbD i = false := by
    intro i hi
    rw [BitVec.getLsbD_append, if_pos hi, BitVec.getLsbD_zero]
  rw [crcShift_iterate_of_low_zero hzero]
  apply BitVec.eq_of_getLsbD_eq
  intro i hi
  rw [BitVec.getLsbD_ushiftRight, BitVec.getLsbD_append, if_neg (by omega), Nat.add_sub_cancel_left,
    BitVec.getLsbD_setWidth, decide_eq_true hi, Bool.true_and]

/-- Two updates are sixteen division steps of the register XOR the two bytes, the first one low. -/
theorem crcFold_pair (r : CrcWord) (b0 b1 : Byte) :
    crcFold r [b0, b1] = crcShift^[16] (r ^^^ (b1 ++ b0 : BitVec (8 + 8))) := by
  have hjoin : (b1 ++ b0 : BitVec (8 + 8)) = b0.setWidth 16 ^^^ (b1 ++ 0#8) := by
    rw [setWidth_byte_eq_append, BitVec.xor_append, BitVec.zero_xor, BitVec.xor_zero]
  calc crcFold r [b0, b1]
    _ = crcShift^[8] (crcShift^[8] (r ^^^ b0.setWidth 16) ^^^ b1.setWidth 16) := by
      simp only [crcFold, List.foldl_cons, List.foldl_nil, crcUpdate_eq_crcShift8, crcShift8_eq_iterate]
    _ = crcShift^[8] (crcShift^[8] (r ^^^ b0.setWidth 16 ^^^ (b1 ++ 0#8))) := by
      rw [crcShift_iterate_xor 8 (r ^^^ b0.setWidth 16), crcShift_iterate_highByte]
    _ = crcShift^[16] (r ^^^ (b1 ++ b0 : BitVec (8 + 8))) := by
      rw [← Function.iterate_add_apply, hjoin, BitVec.xor_assoc]

/-- The listing of R44 is the table that R43 computes. -/
theorem crctListing_eq_map_crct : crctListing = (List.range 256).map fun n => crct (BitVec.ofNat 8 n) := by
  decide +kernel

/-- Division from all ones by sixteen steps: the residue's value (90_conflicts.md C1). -/
theorem crcShift_iterate_allOnes : crcShift^[16] (BitVec.allOnes 16) = 0xF0B8 := by decide +kernel

end Sys2Proof.Machine
end

section
/-!
SUPPORT. crc_reg of a sequence with more bytes after it, and the residue that a trailer leaves (41_crc.md R95, R97).
-/

namespace Sys2Proof.Machine

theorem crcFold_append (r : CrcWord) (bytes more : List Byte) :
    crcFold r (bytes ++ more) = crcFold (crcFold r bytes) more :=
  List.foldl_append

theorem crcReg_append (bytes more : List Byte) : crcReg (bytes ++ more) = crcFold (crcReg bytes) more :=
  crcFold_append crcInit bytes more

/-- A 16-bit value is its high byte above its low byte. -/
theorem append_bytes_eq (c : CrcWord) : (c.extractLsb' 8 8 ++ c.extractLsb' 0 8 : BitVec (8 + 8)) = c :=
  (BitVec.extractLsb'_append_extractLsb'_eq_extractLsb' rfl).trans BitVec.extractLsb'_eq_self

theorem append_bytes_eq_iff {c : CrcWord} {b0 b1 : Byte} :
    (b1 ++ b0 : BitVec (8 + 8)) = c ↔ b0 = c.extractLsb' 0 8 ∧ b1 = c.extractLsb' 8 8 := by
  constructor
  · rintro rfl
    exact ⟨BitVec.extractLsb'_append_eq_right.symm, BitVec.extractLsb'_append_eq_left.symm⟩
  · rintro ⟨rfl, rfl⟩
    exact append_bytes_eq c

/-- Two bytes leave the residue exactly if they are the inverted register, low byte first: sixteen division steps are
injective, so they reach the residue from all ones alone. -/
theorem crcFold_pair_eq_residue_iff (r : CrcWord) (b0 b1 : Byte) :
    crcFold r [b0, b1] = 0xF0B8 ↔ (b1 ++ b0 : BitVec (8 + 8)) = ~~~ r := by
  have hones : ~~~ r = r ^^^ BitVec.allOnes 16 := BitVec.xor_allOnes.symm
  rw [crcFold_pair, ← crcShift_iterate_allOnes, (crcShift_injective.iterate 16).eq_iff, hones,
    ← BitVec.xor_right_inj r, ← BitVec.xor_assoc, BitVec.xor_self, BitVec.zero_xor]

end Sys2Proof.Machine
end

section
/-!
PROOFS. The statements about the CRC table, the update and the CRC of byte sequences (20_memory.md section 3, 41_crc.md
sections 1, 3 and 4, 10_state.md section 2).
-/

namespace Sys2Proof.Machine

/-- Settles O17: the table is defined so; the update with a table is the table's entry for a register below 0x100, and the
update with CRCT is the division. -/
theorem crcTableIsEightDivisionSteps : Obligations.CrcTableIsEightDivisionSteps := by
  refine ⟨fun n => rfl, fun table => ⟨fun htable => funext fun n => ?unique, ?isDivision⟩⟩
  case unique =>
    have hentry : (0#16 >>> 8) ^^^ table ((0#16 ^^^ n.setWidth 16).extractLsb' 0 8) = crcShift8 (0#16 ^^^ n.setWidth 16) :=
      htable 0#16 n
    rwa [BitVec.zero_xor, extractLsb'_zero_setWidth (by decide), BitVec.zero_ushiftRight, BitVec.zero_xor] at hentry
  case isDivision =>
    rintro rfl
    exact crcUpdate_eq_crcShift8

/-- Settles O18: the listing is the table over the indices 0 to 255. -/
theorem crcTableIsTheListedTable : Obligations.CrcTableIsTheListedTable := by
  rw [Obligations.CrcTableIsTheListedTable, crctListing_eq_map_crct]
  refine ⟨by rw [List.length_map, List.length_range], fun n => ?_⟩
  rw [List.getElem?_map, List.getElem?_range n.isLt, Option.map_some, BitVec.ofNat_toNat, BitVec.setWidth_eq]

/-- Settles O19: an entry is a power of the division step, which is linear. -/
theorem crcTableIsLinear : Obligations.CrcTableIsLinear := by
  intro a b
  rw [crct, BitVec.setWidth_xor, crcShift8_eq_iterate, crcShift_iterate_xor]
  rfl

/-- Settles O20: the update is a power of the division step, which is linear. -/
theorem crcUpdateIsLinear : Obligations.CrcUpdateIsLinear := by
  intro r1 r2 b1 b2
  have hregroup : r1 ^^^ r2 ^^^ (b1 ^^^ b2).setWidth 16 = r1 ^^^ b1.setWidth 16 ^^^ (r2 ^^^ b2.setWidth 16) := by
    rw [BitVec.setWidth_xor]
    ac_rfl
  simp only [crcUpdate_eq_crcShift8, crcShift8_eq_iterate, hregroup, crcShift_iterate_xor]

/-- Settles O21: the eight steps shift the high byte down and turn the low byte into its table entry. -/
theorem tableUpdateIsBitSerialDivision : Obligations.TableUpdateIsBitSerialDivision :=
  crcUpdate_eq_crcShift8

/-- Settles O22: sixteen division steps reach every value, and two bytes bring the register to any start. -/
theorem everyCrcValueIsReached : Obligations.EveryCrcValueIsReached := by
  intro c
  obtain ⟨start, rfl⟩ := crcShift_iterate_surjective 16 c
  refine ⟨(crcInit ^^^ start).extractLsb' 0 8, (crcInit ^^^ start).extractLsb' 8 8, ?_⟩
  rw [crcReg, crcFold_pair, append_bytes_eq, ← BitVec.xor_assoc, BitVec.xor_self, BitVec.zero_xor]

/-- Settles O23: the words decode to CINIT, the CUPDs and CFIN, whose run leaves crc_reg in CRC for CFIN to invert. -/
theorem incrementalCommandsComputeCrc16 : Obligations.IncrementalCommandsComputeCrc16 := by
  refine ⟨rfl, fun bytes b => crcReg_append bytes [b], fun bytes => rfl, fun bytes s => ?run⟩
  have hdecode : (encode .cinit :: bytes.map (fun b => encode (.cupd b)) ++ [encode .cfin]).map decode =
      .cinit :: bytes.map .cupd ++ [.cfin] := by
    simp
  rw [runCommands_cinit_cupds s hdecode]
  rfl

/-- Settles O25: the two bytes are the inverted register's, which is the crc16 of the sequence before them. -/
theorem onlyTheTrailerGivesTheResidue : Obligations.OnlyTheTrailerGivesTheResidue := by
  intro bytes t0 t1
  rw [crcReg_append, crcFold_pair_eq_residue_iff, append_bytes_eq_iff, crc16]

/-- Settles O24: the direction of O25 from the trailer to the residue, and the residue's inversion. -/
theorem everyCodewordHasTheResidue : Obligations.EveryCodewordHasTheResidue := by
  intro bytes
  have hresidue := (onlyTheTrailerGivesTheResidue bytes _ _).mpr ⟨rfl, rfl⟩
  refine ⟨hresidue, ?_⟩
  rw [crc16, hresidue]
  decide

end Sys2Proof.Machine
end

section
/-!
PROOFS. The statement of 42_frame.md about the layout and the residue of every frame.
-/

namespace Sys2Proof.Machine

/-- Settles O27: the frame's bytes are the body's, byte by byte, and then its trailer's, which leaves the residue. -/
theorem everyFrameHasItsLayoutAndResidue : Obligations.EveryFrameHasItsLayoutAndResidue := by
  intro m raw f c
  have hbody : ∀ k, 8 * k + 8 ≤ 28 → byteLane f k = raw.extractLsb' (4 + 8 * k) 8 := fun k hk =>
    (byteLane_appendCrc_of_body _ (by omega)).trans (extractLsb'_encodeBody m raw hk)
  refine ⟨hbody 0 (by decide), hbody 1 (by decide), hbody 2 (by decide), ?hatAndButtons,
    byteLane_appendCrc_of_trailer _ (by decide), byteLane_appendCrc_of_trailer _ (by decide), rfl, ?residue⟩
  case hatAndButtons =>
    calc byteLane f 3
      _ = byteLane (encodeBody m raw) 3 := byteLane_appendCrc_of_body _ (by decide)
      _ = (hatt m (dpadCode raw) ++ raw.extractLsb' 28 4).setWidth 8 := by
        rw [byteLane_three_encodeBody, BitVec.setWidth_eq]
      _ = (hatt m (dpadCode raw)).setWidth 8 <<< 4 ||| (raw.extractLsb' 28 4).setWidth 8 :=
        BitVec.setWidth_append_eq_shiftLeft_setWidth_or
      _ = (raw.extractLsb' 28 4).setWidth 8 ||| (hatt m (dpadCode raw)).setWidth 8 <<< 4 := BitVec.or_comm _ _
  case residue =>
    rw [frameBytes_appendCrc]
    obtain ⟨hresidue, -⟩ := everyCodewordHasTheResidue (bodyBytes (encodeBody m raw))
    exact hresidue

end Sys2Proof.Machine
end

section
/-!
SUPPORT. The results of HAT, ENC, APPEND and FRAME in their corner cases and examples (20_memory.md R42, 40_hat_encoder.md
R80, R83, 42_frame.md R111, R112).
-/

namespace Sys2Proof.Machine

/-- The word of a command given by its fields has the command's effect on the state. -/
theorem performCommand_makeWord_eq (op : Opcode) (opnd : Word32) (s : State) :
    performCommand (makeWord op opnd) s = .next (s.afterCommand (decodeFields op opnd)) := by
  rw [performCommand_makeWord, exec_eq]

theorem performCommand_of_decode {cw : CmdWord} {i : Instr} (h : decode cw = i) (s : State) :
    performCommand cw s = exec i s := by
  rw [performCommand, h]

section Results

variable {s : State} {r : ResWord}

/-- A command that produces a result writes it to RES and nothing else. -/
theorem exec_of_producesResult {i : Instr} (hres : i.producesResult = true) (h : nextRes i s = r) :
    exec i s = .next { s with res := r } := by
  rw [exec_eq, ← h]
  cases i with
  | hat | enc | cread | cfin | append | frame => rfl
  | _ => cases hres

theorem exec_hat_of_hatt {d v : Nibble} (h : hatt s.config.dpadMap d = v) (hr : zext48 v = r) :
    exec (.hat d) s = .next { s with res := r } :=
  exec_of_producesResult rfl ((congrArg zext48 h).trans hr)

theorem exec_enc_of_encodeBody {raw b : Word32} (h : encodeBody s.config.dpadMap raw = b) (hr : zext48 b = r) :
    exec (.enc raw) s = .next { s with res := r } :=
  exec_of_producesResult rfl ((congrArg zext48 h).trans hr)

theorem exec_append_of_appendCrc {w : Word32} (h : appendCrc w = r) :
    exec (.append w) s = .next { s with res := r } :=
  exec_of_producesResult rfl h

theorem exec_frame_of_encodeBody {raw b : Word32} (h : encodeBody s.config.dpadMap raw = b) (hr : appendCrc b = r) :
    exec (.frame raw) s = .next { s with res := r } :=
  exec_of_producesResult rfl ((congrArg appendCrc h).trans hr)

end Results

theorem toNat_zext48 {n : Nat} (hn : n ≤ 48) (v : BitVec n) : (zext48 v).toNat = v.toNat :=
  BitVec.toNat_setWidth_of_le hn

/-- FRAME is ENC and then APPEND of the body that ENC left in RES (42_frame.md R112). -/
theorem State.afterCommand_enc_append (s : State) (raw : Word32) :
    (s.afterCommand (.enc raw)).afterCommand (.append ((s.afterCommand (.enc raw)).res.extractLsb' 0 32)) =
      s.afterCommand (.frame raw) := by
  have hbody : (s.afterCommand (.enc raw)).res.extractLsb' 0 32 = encodeBody s.config.dpadMap raw :=
    (zext48_body _).trans (BitVec.setWidth_eq _)
  rw [hbody]
  rfl

/-! The bodies and frames of the corner cases and examples. -/

theorem encodeBody_lowest_button (m : DpadMap) : encodeBody m 0x00000010 = 0x80000001 :=
  encodeBody_of_parts (b := 1) (by decide) (hatt_zero m) (by decide)

theorem encodeBody_default_up : encodeBody DpadMap.default 0x00000001 = 0 := by decide
theorem appendCrc_00000000 : appendCrc 0x00000000 = 0xFCDE00000000 := by decide +kernel
theorem appendCrc_FFFFFFFF : appendCrc 0xFFFFFFFF = 0x0F47FFFFFFFF := by decide +kernel
theorem appendCrc_80000000 : appendCrc 0x80000000 = 0x78D680000000 := by decide +kernel
theorem appendCrc_8FFFFFFF : appendCrc 0x8FFFFFFF = 0x7CC08FFFFFFF := by decide +kernel

theorem hatt_default_of_opposing : ∀ d ∈ [(0x5 : Nibble), 0x7, 0xA, 0xB, 0xD, 0xE, 0xF], hatt DpadMap.default d = 8 := by
  decide

end Sys2Proof.Machine
end

section
/-!
PROOFS. The statements of 40_hat_encoder.md and 42_frame.md about the commands HAT, ENC, APPEND and FRAME.
-/

namespace Sys2Proof.Machine

/-- Settles O29: HAT's result is the table's entry, which is 8 for no direction and for an opposing pair and never more. -/
theorem hatWritesTheHatValue : Obligations.HatWritesTheHatValue := by
  intro s
  have hnull : zext48 (8 : Nibble) = 0x000000000008 := by decide
  refine ⟨fun d => exec_eq (.hat d) s, fun opnd => performCommand_makeWord_eq 0x1 opnd s,
    exec_hat_of_hatt (hatt_zero _) hnull, ?opposing, fun hdefault => ⟨?sample, ?listed⟩, ?range⟩
  case opposing =>
    rintro d (⟨hup, hdown⟩ | ⟨hleft, hright⟩)
    · exact exec_hat_of_hatt (hatt_of_up_down hup hdown) hnull
    · exact exec_hat_of_hatt (hatt_of_right_left hright hleft) hnull
  case sample =>
    have hvalue : hatt s.config.dpadMap 0x3 = 1 := by rw [hdefault]; decide
    rw [performCommand_of_decode (by decide : decode 0x100000003 = .hat 0x3)]
    exact exec_hat_of_hatt hvalue (by decide)
  case listed =>
    intro d hd
    exact exec_hat_of_hatt (hdefault ▸ hatt_default_of_opposing d hd) hnull
  case range =>
    intro d t h
    have hres : t.res = zext48 (hatt s.config.dpadMap d) := by
      rw [exec_eq_next_iff.mp h]
      rfl
    rw [hres, toNat_zext48 (by decide)]
    exact toNat_hatt_le _ _

/-- Settles O30: ENC's result is the zero-extended body, evaluated at the listed values, and has no trailer. -/
theorem encWritesTheBody : Obligations.EncWritesTheBody := by
  intro s
  refine ⟨fun raw => ⟨exec_eq (.enc raw) s, performCommand_makeWord_eq 0x2 raw s⟩,
    exec_enc_of_encodeBody (encodeBody_zero _) (by decide), exec_enc_of_encodeBody (encodeBody_allOnes _) (by decide),
    ?sample, fun hdefault => exec_enc_of_encodeBody (hdefault ▸ encodeBody_default_up) (by decide), ?noTrailer⟩
  case sample =>
    rw [performCommand_of_decode (by decide : decode 0x200000010 = .enc 0x00000010)]
    exact exec_enc_of_encodeBody (encodeBody_lowest_button _) (by decide)
  case noTrailer =>
    intro raw t h
    rw [exec_eq_next_iff.mp h]
    exact zext48_trailer le_rfl _

/-- Settles O35: APPEND's result is the frame of its operand, evaluated at the listed bodies. -/
theorem appendWritesTheFrame : Obligations.AppendWritesTheFrame := by
  intro s
  refine ⟨fun w => ⟨exec_eq (.append w) s, performCommand_makeWord_eq 0x7 w s⟩,
    exec_append_of_appendCrc appendCrc_00000000, exec_append_of_appendCrc appendCrc_FFFFFFFF, ?_⟩
  rw [performCommand_of_decode (by decide : decode 0x780000000 = .append 0x80000000)]
  exact exec_append_of_appendCrc appendCrc_80000000

/-- Settles O36: FRAME's result is the frame of the encoded body, which ENC leaves for APPEND; the listed raws have the same
body under every DPAD_MAP. -/
theorem frameWritesTheEncodedFrame : Obligations.FrameWritesTheEncodedFrame := by
  intro s
  refine ⟨fun raw => ⟨exec_eq (.frame raw) s, performCommand_makeWord_eq 0x8 raw s⟩,
    fun raw => ⟨_, exec_eq (.enc raw) s, ?encThenAppend⟩, ?sample,
    exec_frame_of_encodeBody (encodeBody_allOnes _) appendCrc_8FFFFFFF⟩
  case encThenAppend => rw [exec_eq, exec_eq, State.afterCommand_enc_append]
  case sample =>
    rw [performCommand_of_decode (by decide : decode 0x800000000 = .frame 0x00000000)]
    exact exec_frame_of_encodeBody (encodeBody_zero _) appendCrc_80000000

end Sys2Proof.Machine
end

section
/-!
SUPPORT. What a command leaves, by its class: RES, CRC, and everything when it is repeated (10_state.md R22, R24,
20_memory.md R50); and a step that takes what was just presented.
-/

namespace Sys2Proof.Machine

theorem nextRes_of_no_result {i : Instr} (h : i.producesResult = false) (s : State) : nextRes i s = s.res := by
  cases i with
  | hat | enc | cread | cfin | append | frame => cases h
  | _ => rfl

theorem nextCrc_of_no_write {i : Instr} (hinit : i ≠ .cinit) (hbyte : i.foldedByte? = none) (c : CrcWord) :
    nextCrc i c = c := by
  cases i with
  | cinit => exact absurd rfl hinit
  | cupd => cases hbyte
  | _ => rfl

/-- No command but CUPD reads what it writes, apart from ERR, which stays set. -/
theorem State.afterCommand_afterCommand {i : Instr} (h : i.foldedByte? = none) (s : State) :
    (s.afterCommand i).afterCommand i = s.afterCommand i := by
  cases i with
  | cupd => cases h
  | _ => rfl

/-- What the one issuer presents is performed next, at the state before it was presented. -/
theorem step_present {s : State} (hone : s.config.issuers = .one) (e : PortEvent) :
    step (s.present e) = performEvent e s := by
  have hconfig : { s.config with issuers := .one } = s.config := by rw [← hone]
  have hstate : { s.present e with inputs := s.inputs } = s := by rw [State.present, hconfig]
  rw [step_eq_performEvent (s.present_issuers e) (s.present_inputs e), hstate]

/-- An opcode-table word that the decoder reads is a command word. -/
theorem decode_of_decodeTableWord {nbits w : Nat} {i : Instr} (h : decodeTableWord nbits w = some i) :
    decode (BitVec.ofNat 36 (tableWordBits nbits w)) = i := by
  unfold decodeTableWord decodeNat at h
  by_cases hlt : tableWordBits nbits w < 2 ^ 36
  · rw [if_pos hlt] at h
    exact Option.some.inj h
  · rw [if_neg hlt] at h
    cases h

end Sys2Proof.Machine
end

section
/-!
PROOFS. The statements about every command and about a step: the frame, idempotence, the presented command and the idle
block.
-/

namespace Sys2Proof.Machine

/-- Settles O43: the listed effect, field by field. -/
theorem everyCommandKeepsTheRest : Obligations.EveryCommandKeepsTheRest := by
  intro i s t h
  rw [exec_eq_next_iff.mp h]
  refine ⟨fun hres => nextRes_of_no_result hres s, fun hinit hbyte => nextCrc_of_no_write hinit hbyte _,
    fun hassigned => ?_, rfl, rfl⟩
  rw [State.afterCommand_err, hassigned, Bool.not_true, Bool.false_or]

/-- Settles O44: a command's effect repeated is its effect; CUPD 0x00 takes CRC from 0xFFFF to 0x0F87 and on to
0xF0B8. -/
theorem allButCupdAreIdempotent : Obligations.AllButCupdAreIdempotent := by
  refine ⟨fun i s t hbyte h => ?idempotent, 0x00, _, _, exec_cupd State.reset crcUpdate_FFFF_00, ?cupd⟩
  case idempotent => rw [exec_eq_next_iff.mp h, exec_eq, State.afterCommand_afterCommand hbyte]
  case cupd =>
    obtain ⟨-, -, -, -, -, hchanges, -⟩ := cupdFoldsOneByte State.reset
    exact hchanges

/-- Settles O46: the step performs the presented word, and that word decodes to the command. -/
theorem stepPerformsThePresentedCommand : Obligations.StepPerformsThePresentedCommand := by
  refine ⟨?presented, ?placed⟩
  case presented =>
    rintro s cw rest i hone hin rfl
    exact step_eq_performEvent hone hin
  case placed =>
    intro s nbits w i hone hdecode
    rw [State.withFetchWord_eq, step_present hone]
    exact performCommand_of_decode (decode_of_decodeTableWord hdecode) s

/-- Settles O47: with nothing presented a step takes no event. -/
theorem idleBlockKeepsItsState : Obligations.IdleBlockKeepsItsState :=
  fun _ hone hin => step_eq_self_of_idle hone hin

end Sys2Proof.Machine
end

section
/-!
SUPPORT. The state a run of command words leaves, and what of it each class of commands determines: ERR, RES and CRC
(70_reset_and_hazards.md R142 to R149).
-/

namespace Sys2Proof.Machine

/-- The state after a run of command words. -/
def State.afterWords (s : State) (ws : List CmdWord) : State :=
  (ws.map decode).foldl State.afterCommand s

theorem runCommands_eq_afterWords (ws : List CmdWord) (s : State) : runCommands ws s = .next (s.afterWords ws) :=
  runCommands_eq ws s

section Words

variable (s : State) (cw : CmdWord) (ws more : List CmdWord)

@[simp] theorem State.afterWords_nil : s.afterWords [] = s := rfl

@[simp] theorem State.afterWords_cons : s.afterWords (cw :: ws) = (s.afterCommand (decode cw)).afterWords ws := rfl

theorem State.afterWords_append : s.afterWords (ws ++ more) = (s.afterWords ws).afterWords more := by
  rw [State.afterWords, List.map_append, List.foldl_append]
  rfl

theorem State.afterWords_err : (s.afterWords ws).err = (hasReserved ws || s.err) :=
  foldl_afterCommand_err ws s

theorem traceCommands_cons_eq :
    traceCommands (cw :: ws) s = (s.afterCommand (decode cw)).outputs :: traceCommands ws (s.afterCommand (decode cw)) :=
  traceCommands_cons ws (performCommand_eq cw s)

end Words

/-- Every run is fault-free exactly if ERR is 0 at first and no command is reserved. -/
theorem faultFreeRun_iff (ws : List CmdWord) (s : State) :
    FaultFreeRun ws s ↔ hasReserved ws = false ∧ s.err = false := by
  have herr : FaultFreeRun ws s ↔ (s.afterWords ws).err = false := by
    rw [FaultFreeRun, runCommands_eq_afterWords]
    simp
  rw [herr, State.afterWords_err, Bool.or_eq_false_iff]

theorem hasReserved_cons (cw : CmdWord) (ws : List CmdWord) :
    hasReserved (cw :: ws) = (!(decode cw).assigned || hasReserved ws) := rfl

/-- From ERR = 0, ERR = 0 after every step exactly if no command is reserved. -/
theorem trace_err_false_iff (ws : List CmdWord) {s : State} (hs : s.err = false) :
    (∀ o ∈ traceCommands ws s, o.err = false) ↔ hasReserved ws = false := by
  induction ws generalizing s with
  | nil => simp [traceCommands, hasReserved]
  | cons cw ws ih =>
    have herr : (s.afterCommand (decode cw)).err = !(decode cw).assigned := by
      rw [State.afterCommand_err, hs, Bool.or_false]
    rw [traceCommands_cons_eq, List.forall_mem_cons, State.outputs_err, herr, hasReserved_cons, Bool.or_eq_false_iff]
    exact and_congr_right fun hassigned => ih (herr.trans hassigned)

/-- Commands that produce no result leave RES. -/
theorem State.afterWords_res_of_no_result {ws : List CmdWord} (h : ∀ w ∈ ws, (decode w).producesResult = false)
    (s : State) : (s.afterWords ws).res = s.res := by
  induction ws generalizing s with
  | nil => rfl
  | cons cw ws ih =>
    rw [List.forall_mem_cons] at h
    obtain ⟨hcw, hws⟩ := h
    rw [State.afterWords_cons, ih hws, State.afterCommand_res, nextRes_of_no_result hcw]

/-- A command that is no CINIT folds into CRC its byte, where it has one. -/
theorem nextCrc_eq_crcFold {i : Instr} (h : i ≠ .cinit) (c : CrcWord) : nextCrc i c = crcFold c i.foldedByte?.toList := by
  cases i with
  | cinit => exact absurd rfl h
  | _ => rfl

theorem foldedBytes_cons (cw : CmdWord) (ws : List CmdWord) :
    foldedBytes (cw :: ws) = (decode cw).foldedByte?.toList ++ foldedBytes ws := by
  rw [foldedBytes, List.filterMap_cons, foldedBytes]
  cases (decode cw).foldedByte? <;> rfl

theorem withoutCinit_cons (cw : CmdWord) (ws : List CmdWord) :
    withoutCinit (cw :: ws) = (decode cw != .cinit && withoutCinit ws) := rfl

/-- Without a CINIT, a run folds the bytes of its CUPDs into CRC (70_reset_and_hazards.md R144). -/
theorem State.afterWords_crc_of_withoutCinit {ws : List CmdWord} (h : withoutCinit ws = true) (s : State) :
    (s.afterWords ws).crc = crcFold s.crc (foldedBytes ws) := by
  induction ws generalizing s with
  | nil => rfl
  | cons cw ws ih =>
    rw [withoutCinit_cons, Bool.and_eq_true, bne_iff_ne] at h
    obtain ⟨hcw, hws⟩ := h
    rw [State.afterWords_cons, ih hws, State.afterCommand_crc, nextCrc_eq_crcFold hcw, foldedBytes_cons, crcFold_append]

theorem bytesSinceCinit_concat (ws : List CmdWord) (cw : CmdWord) :
    bytesSinceCinit (ws ++ [cw]) =
      if decode cw = .cinit then [] else bytesSinceCinit ws ++ (decode cw).foldedByte?.toList := by
  rw [bytesSinceCinit, List.foldl_concat, bytesSinceCinit]

/-- From reset, CRC is crc_reg of the bytes since the last CINIT: a CINIT empties both, and any other command adds its byte
to both. -/
theorem crc_afterWords_reset (ws : List CmdWord) : (State.reset.afterWords ws).crc = crcReg (bytesSinceCinit ws) := by
  induction ws using List.reverseRecOn with
  | nil => rfl
  | append_singleton ws cw ih =>
    rw [State.afterWords_append, State.afterWords_cons, State.afterWords_nil, State.afterCommand_crc, ih,
      bytesSinceCinit_concat]
    split
    case isTrue hinit => rw [hinit]; rfl
    case isFalse hinit => rw [nextCrc_eq_crcFold hinit, crcReg_append]

/-- CINIT leaves nothing of the earlier CRC. -/
theorem State.afterCommand_cinit_writeCrc (s : State) (c : CrcWord) :
    (s.writeCrc c).afterCommand .cinit = s.afterCommand .cinit := rfl

/-- A run that starts CRC before it uses it starts it now, or goes on to do so without using it. -/
theorem cinitBeforeUse_cons_cases {cw : CmdWord} {ws : List CmdWord} (h : cinitBeforeUse (cw :: ws) = true) :
    decode cw = .cinit ∨ decode cw ≠ .cinit ∧ (decode cw).readsCrc = false ∧ cinitBeforeUse ws = true := by
  by_cases hinit : decode cw = .cinit
  · exact .inl hinit
  · rw [cinitBeforeUse, if_neg hinit, Bool.and_eq_true, Bool.not_eq_true'] at h
    exact .inr ⟨hinit, h⟩

/-- A run that starts CRC before it uses it shows the same outputs whatever CRC held: up to its CINIT the two runs differ in
CRC alone, and from there in nothing. -/
theorem traceCommands_writeCrc {ws : List CmdWord} (h : cinitBeforeUse ws = true) (s : State) (c : CrcWord) :
    traceCommands ws (s.writeCrc c) = traceCommands ws s := by
  induction ws generalizing s with
  | nil => rfl
  | cons cw ws ih =>
    rw [traceCommands_cons_eq, traceCommands_cons_eq]
    obtain hinit | ⟨hinit, hread, hws⟩ := cinitBeforeUse_cons_cases h
    · rw [hinit, State.afterCommand_cinit_writeCrc]
    · rw [State.afterCommand_writeCrc hread hinit, ih hws]
      rfl

theorem State.afterWords_writeCrc {ws : List CmdWord} (h : cinitBeforeUse ws = true) (hcinit : withoutCinit ws = false)
    (s : State) (c : CrcWord) : (s.writeCrc c).afterWords ws = s.afterWords ws := by
  induction ws generalizing s with
  | nil => cases hcinit
  | cons cw ws ih =>
    rw [State.afterWords_cons, State.afterWords_cons]
    obtain hinit | ⟨hinit, hread, hws⟩ := cinitBeforeUse_cons_cases h
    · rw [hinit, State.afterCommand_cinit_writeCrc]
    · rw [withoutCinit_cons, bne_iff_ne.mpr hinit, Bool.true_and] at hcinit
      rw [State.afterCommand_writeCrc hread hinit, ih hws hcinit]

end Sys2Proof.Machine
end

section
/-!
PROOFS. The statements of 70_reset_and_hazards.md about runs: fault-freedom, CRC, RES, and independence of the earlier CRC.
-/

namespace Sys2Proof.Machine

/-- Settles O55: every run leaves a state, whose ERR is told by the reserved commands, and so are the outputs'. -/
theorem runIsFaultFreeIffNoReservedCommand : Obligations.RunIsFaultFreeIffNoReservedCommand := by
  refine ⟨fun ws s => ⟨_, runCommands_eq_afterWords ws s, ?err⟩, fun ws s hs => ?iff⟩
  case err => rw [State.afterWords_err, Bool.or_comm]
  case iff => rw [faultFreeRun_iff, trace_err_false_iff ws hs, and_iff_left hs]

/-- Settles O56: after a CINIT the run is one without CINIT from crc_reg of no bytes. -/
theorem crcIsThatOfTheBytesSinceCinit : Obligations.CrcIsThatOfTheBytesSinceCinit := by
  refine ⟨fun ws s h => ⟨_, runCommands_eq_afterWords ws s, State.afterWords_crc_of_withoutCinit h s⟩,
    fun before after cw s hcw h => ⟨_, runCommands_eq_afterWords _ s, ?afterCinit⟩,
    fun ws => ⟨_, runCommands_eq_afterWords ws _, crc_afterWords_reset ws⟩⟩
  rw [State.afterWords_append, State.afterWords_cons, hcw, State.afterWords_crc_of_withoutCinit h]
  rfl

/-- Settles O57: the run goes on from the state the given command left, and the commands after it leave RES. -/
theorem resultStaysUntilTheNextResult : Obligations.ResultStaysUntilTheNextResult := by
  intro before after cw s t u hbefore hcw hafter
  refine ⟨u.afterWords after, ?run, State.afterWords_res_of_no_result hafter u⟩
  rw [runCommands_append hbefore, runCommands_cons after hcw, runCommands_eq_afterWords]

/-- Settles O58, by the two inductions along the run. -/
theorem cinitMakesTheRunIndependentOfCrc : Obligations.CinitMakesTheRunIndependentOfCrc := by
  intro ws s c h
  refine ⟨traceCommands_writeCrc h s c, fun hinit => ?_⟩
  rw [runCommands_eq_afterWords, runCommands_eq_afterWords]
  exact congrArg _ (State.afterWords_writeCrc h hinit s c)

end Sys2Proof.Machine
end

section
/-!
SUPPORT. The pseudo-instructions: what their lines assemble to, and what their runs leave (30_encoding.md R67).
-/

namespace Sys2Proof.Machine

theorem ofNat_toNat_eq {n : Nat} (v : BitVec n) : BitVec.ofNat n v.toNat = v :=
  (BitVec.ofNat_toNat n v).trans (BitVec.setWidth_eq v)

theorem assemble_crcBytes (bytes : List Byte) :
    assemble (.crcBytes (bytes.map BitVec.toNat)) = .ok ((expandCrcBytes bytes).map encode) := by
  have hfits : (bytes.map BitVec.toNat).all (literalFits 8) = true := by
    rw [List.all_map, List.all_eq_true]
    exact fun b _ => literalFits_of_lt b.isLt
  have hbytes : (bytes.map BitVec.toNat).map (BitVec.ofNat 8) = bytes := by
    rw [List.map_map]
    exact (List.map_congr_left fun b _ => ofNat_toNat_eq b).trans (List.map_id bytes)
  rw [assemble_eq_ok (by rw [SourceLine.problem, hfits, if_pos rfl]), lineWords, hbytes]

theorem assemble_crcBody (w : Word32) : assemble (.crcBody w.toNat) = .ok ((expandCrcBody w).map encode) := by
  rw [assemble_eq_ok (by rw [SourceLine.problem, literalFits_of_lt w.isLt, if_pos rfl]), lineWords,
    ofNat_toNat_eq]

theorem assemble_checkFrame (f : ResWord) :
    assemble (.checkFrame f.toNat) = .ok ((expandCheckFrame f).map encode) := by
  rw [assemble_eq_ok (by rw [SourceLine.problem, literalFits_of_lt f.isLt, if_pos rfl]), lineWords,
    ofNat_toNat_eq]

end Sys2Proof.Machine
end

section
/-!
PROOFS. The statement of 30_encoding.md about the pseudo-instructions.
-/

namespace Sys2Proof.Machine

/-- Settles O59: each line assembles to its expansion's words, whose run leaves crc_reg of the bytes for the last command;
for the bytes of an appended frame that is the residue. -/
theorem pseudoInstructionsGiveTheirResults : Obligations.PseudoInstructionsGiveTheirResults := by
  refine ⟨fun bytes s => ⟨_, _, assemble_crcBytes bytes, map_decode_map_encode _,
      runCommands_cinit_cupds s (map_decode_map_encode _), rfl, rfl, rfl⟩,
    fun w s => ⟨_, _, assemble_crcBody w, map_decode_map_encode _,
      runCommands_cinit_cupds s (bytes := bodyBytes w) (map_decode_map_encode _), ?trailer, rfl, rfl⟩,
    fun f s => ⟨_, _, assemble_checkFrame f, map_decode_map_encode _,
      runCommands_cinit_cupds s (bytes := frameBytes f) (map_decode_map_encode _), rfl, rfl, rfl, ?residue⟩⟩
  case trailer =>
    rw [appendCrc_trailer]
    exact extractLsb'_zero_setWidth (by decide) _
  case residue =>
    rintro w rfl
    obtain ⟨hresidue, -⟩ := everyCodewordHasTheResidue (bodyBytes w)
    rw [← frameBytes_appendCrc] at hresidue
    exact (extractLsb'_zero_setWidth (by decide) _).trans hresidue

end Sys2Proof.Machine
end
